-- ==== Sys2Proof/Word.lean ====
section
/-! DEFINITION. The word types of the Canbus_joystick core block: what the spec treats as bits (00_scope.md R16, R17). -/

namespace Sys2Proof

/-- A 32-bit register or command word (20_memory.md R71, R78). -/
abbrev Word := BitVec 32

/-- One payload byte of a CAN frame (20_memory.md R76). -/
abbrev Byte := BitVec 8

/-- A 12-bit byte address of the host register space (20_memory.md R71). -/
abbrev Addr := BitVec 12

end Sys2Proof
end

