-- ==== Sys2Proof/Syntax.lean ====
section
/-! DEFINITION. The instructions of the block: one constructor per row of the opcode table
(30_encoding.md R103, R105), and the two written forms an instruction has (R101). -/

namespace Sys2Proof

/-- The bus transactions (format B) and the commands (format C) of 30_encoding.md R105. -/
inductive Instr where
  /-- RD addr: register read (40_host_bus.md R131). -/
  | rd (addr : Addr)
  /-- WR addr, data: register write (40_host_bus.md R132). -/
  | wr (addr : Addr) (data : Word)
  /-- NOP (46_system.md R291). -/
  | nop
  /-- SAMPLE arg: start an acquisition; arg 0 is axis X, 1 is axis Y, no other is legal (41_axis_sampler.md R161). -/
  | sample (arg : BitVec 8)
  /-- LATCH_BTN (42_button_bank.md R191). -/
  | latchBtn
  /-- ENCODE (43_frame_packer.md R201). -/
  | encode
  /-- SEND (43_frame_packer.md R213). -/
  | send
  /-- RX_FRAME (44_status_rx.md R231). -/
  | rxFrame
  /-- TICK (45_led_fsm.md R268). -/
  | tick
  /-- SOFT_RESET (46_system.md R292). -/
  | softReset
deriving DecidableEq, Repr

/-- The two formats, each of fixed length, and no other (30_encoding.md R101). -/
inductive Encoded where
  /-- Format C: the 32-bit command word. -/
  | command (w : BitVec 32)
  /-- Format B: the 45-bit bus transaction word. -/
  | transaction (w : BitVec 45)
deriving DecidableEq, Repr

/-- Why a written form is no instruction. -/
inductive Rejection where
  /-- The command word decodes to ILLEGAL (30_encoding.md R106, R108). -/
  | illegalCommand
  /-- A format-B word with W = 0 and DATA != 0 encodes no transaction (30_encoding.md R103). -/
  | readWithData
deriving DecidableEq, Repr

end Sys2Proof
end

