-- ==== Sys2Proof/WellFormed.lean ====
section
/-! DEFINITION. Which terms of `Instr` the hardware has. The only operand a type does not bound is SAMPLE's ARG. -/

namespace Sys2Proof

/-- SAMPLE's ARG is legal only for 0 (X) and 1 (Y) (30_encoding.md R104); every other operand fills its field. -/
def WellFormed : Instr → Bool
  | .sample arg => decide (arg.toNat ≤ 1)
  | .rd _ => true
  | .wr _ _ => true
  | .nop => true
  | .latchBtn => true
  | .encode => true
  | .send => true
  | .rxFrame => true
  | .tick => true
  | .softReset => true

/-- The rows of format C (30_encoding.md R105): what a CMD write can issue. -/
def Instr.isCommand : Instr → Bool
  | .rd _ => false
  | .wr _ _ => false
  | .nop => true
  | .sample _ => true
  | .latchBtn => true
  | .encode => true
  | .send => true
  | .rxFrame => true
  | .tick => true
  | .softReset => true

end Sys2Proof
end

