-- ==== Sys2Proof/Decode.lean ====
section
/-! DEFINITION. Decoding and encoding of command words and bus transaction words (30_encoding.md R101 to R107). -/

namespace Sys2Proof

/-- OP, bits [7:0] of a command word (30_encoding.md R102). -/
def opField (w : BitVec 32) : BitVec 8 := w.extractLsb' 0 8

/-- ARG, bits [15:8] of a command word (30_encoding.md R102). -/
def argField (w : BitVec 32) : BitVec 8 := w.extractLsb' 8 8

/-- RSV, bits [31:16] of a command word (30_encoding.md R102). -/
def rsvField (w : BitVec 32) : BitVec 16 := w.extractLsb' 16 16

/-- W, bit [44] of a transaction word: false for RD, true for WR (30_encoding.md R103). -/
def writeBit (w : BitVec 45) : Bool := w.getLsbD 44

/-- ADDR, bits [43:32] of a transaction word (30_encoding.md R103). -/
def addrField (w : BitVec 45) : Addr := w.extractLsb' 32 12

/-- DATA, bits [31:0] of a transaction word (30_encoding.md R103). -/
def dataField (w : BitVec 45) : Word := w.extractLsb' 0 32

/-- DecodeCmd, a total function of the 32 bits (30_encoding.md R106). -/
def decodeCommand (w : BitVec 32) : Except Rejection Instr :=
  let op := opField w
  let arg := argField w
  if rsvField w ≠ 0 then .error .illegalCommand
  else if op = 0x01#8 then (if arg.toNat ≤ 1 then .ok (.sample arg) else .error .illegalCommand)
  else if arg ≠ 0 then .error .illegalCommand
  else if op = 0x00#8 then .ok .nop
  else if op = 0x02#8 then .ok .latchBtn
  else if op = 0x03#8 then .ok .encode
  else if op = 0x04#8 then .ok .send
  else if op = 0x05#8 then .ok .rxFrame
  else if op = 0x06#8 then .ok .tick
  else if op = 0xFF#8 then .ok .softReset
  else .error .illegalCommand

/-- The transaction a format-B word encodes (30_encoding.md R103). -/
def decodeTransaction (w : BitVec 45) : Except Rejection Instr :=
  if writeBit w then .ok (.wr (addrField w) (dataField w))
  else if dataField w = 0 then .ok (.rd (addrField w))
  else .error .readWithData

/-- The decoder over both formats (30_encoding.md R101). -/
def decode : Encoded → Except Rejection Instr
  | .command w => decodeCommand w
  | .transaction w => decodeTransaction w

/-- A command word from its fields, RSV = 0 (30_encoding.md R102). -/
def commandWord (arg op : BitVec 8) : BitVec 32 := (arg.setWidth 32 <<< 8) ||| op.setWidth 32

/-- A transaction word from its fields (30_encoding.md R103). -/
def transactionWord (write : Bool) (addr : Addr) (data : Word) : BitVec 45 :=
  (if write then BitVec.twoPow 45 44 else 0) ||| (addr.setWidth 45 <<< 32) ||| data.setWidth 45

/-- The written form of an instruction (30_encoding.md R102, R103, R105). -/
def encode : Instr → Encoded
  | .rd addr => .transaction (transactionWord false addr 0)
  | .wr addr data => .transaction (transactionWord true addr data)
  | .nop => .command (commandWord 0 0x00)
  | .sample arg => .command (commandWord arg 0x01)
  | .latchBtn => .command (commandWord 0 0x02)
  | .encode => .command (commandWord 0 0x03)
  | .send => .command (commandWord 0 0x04)
  | .rxFrame => .command (commandWord 0 0x05)
  | .tick => .command (commandWord 0 0x06)
  | .softReset => .command (commandWord 0 0xFF)

/-- CMD's offset (20_memory.md R72). -/
def cmdOffset : Addr := 0x00C#12

/-- The bus access that runs an instruction: a transaction is its own word, a command is the data of a WR to CMD
(40_host_bus.md R133, 30_encoding.md R111; assumption log 10). -/
def accessWord : Encoded → BitVec 45
  | .command w => transactionWord true cmdOffset w
  | .transaction w => w

/-- The format of an opcode-table row of `nbits` bits: 32 for format C, 45 (in whole bytes 48) for format B
(30_encoding.md R101; assumption log 15). -/
def encodedOfTable (nbits w : Nat) : Encoded :=
  if nbits ≤ 32 then .command (BitVec.ofNat 32 w) else .transaction (BitVec.ofNat 45 w)

/-- The instruction the decoder reads from a table row's word; a number with bits above its format's length is none. -/
def decodeTableWord (nbits w : Nat) : Option Instr :=
  if w < (if nbits ≤ 32 then 2 ^ 32 else 2 ^ 45) then (decode (encodedOfTable nbits w)).toOption else none

end Sys2Proof
end

