-- ==== Sys2Proof/Config.lean ====
section
/-! DEFINITION. What a build of the block fixes (00_scope.md section 3), the constants the source states (R14, R15),
and the free values: constants with no body, of which nothing can be proved (assumption log 3, 4). -/

namespace Sys2Proof

/-- The tie rule of the rescale's `round`, which the source does not give (00_scope.md R13). -/
inductive RoundTies where
  | halfEven
  | halfUp
deriving DecidableEq, Repr, Inhabited

/-- The transport's answer to one send (00_scope.md R18, 20_memory.md R75). -/
inductive TxResult where
  | ok
  | fail
deriving DecidableEq, Repr, Inhabited

/-- The build-time parameters, fixed for one machine (00_scope.md R9 to R13). -/
structure Build where
  /-- N_BUTTONS, in 1..8 (R9). -/
  nButtons : Nat
  /-- N_LEDS, in 1..16 (R10). -/
  nLeds : Nat
  /-- N_FILTERS, in 1..8 (R11). -/
  nFilters : Nat
  /-- WINDOW_MAX, in 1..2^32-1 (R12). -/
  windowMax : Nat
  /-- ROUND_TIES, the open parameter (R13). -/
  roundTies : RoundTies
deriving DecidableEq, Repr

/-- The bounds of the build parameters (00_scope.md R9 to R12). -/
abbrev Build.wf (b : Build) : Prop :=
  (1 ≤ b.nButtons ∧ b.nButtons ≤ 8) ∧ (1 ≤ b.nLeds ∧ b.nLeds ≤ 16) ∧ (1 ≤ b.nFilters ∧ b.nFilters ≤ 8) ∧
    (1 ≤ b.windowMax ∧ b.windowMax ≤ 2 ^ 32 - 1)

namespace Config

/-- ROUND_TIES of the machine that `State.reset` describes: left OPEN by the spec (00_scope.md R13, 92 D9), so a
constant with no body (assumption log 4). -/
opaque roundTies : RoundTies

/-- The raw pin levels of a LATCH_BTN whose levels no program line gives: any value
(93_implementation_defined.md I3; assumption log 3). -/
opaque freePins : Nat → Byte

/-- The transport's answer to a SEND whose answer no program line gives: any value
(93_implementation_defined.md I4; assumption log 3). -/
opaque freeTx : Nat → TxResult

/-- The build with the spec's defaults (00_scope.md R9 to R12) and the open tie rule. -/
def defaultBuild : Build :=
  { nButtons := 6, nLeds := 9, nFilters := 4, windowMax := 2048, roundTies := roundTies }

/-- TX_ID, the joystick frame's identifier (00_scope.md R14, 43_frame_packer.md R214). -/
def txId : Word := 0x18FDD6F1#32

/-- Payload byte 4 of every joystick frame (00_scope.md R14). -/
def marker4 : Byte := 0xFF#8

/-- Payload byte 7 of every joystick frame (00_scope.md R14). -/
def marker7 : Byte := 0x1F#8

/-- P_SLOW in milliseconds (00_scope.md R15). -/
def periodSlow : Nat := 1000

/-- P_MED in milliseconds (00_scope.md R15). -/
def periodMed : Nat := 500

/-- P_FAST in milliseconds (00_scope.md R15). -/
def periodFast : Nat := 100

/-- The status frame's identifier, which the block compares with nothing (00_scope.md R14, 44_status_rx.md R233). -/
def statusId : Word := 0x18EFF102#32

end Config

end Sys2Proof
end

