-- ==== Sys2Proof/Machine/State.lean ====
section
/-! DEFINITION. The state of the machine. `Block` is exactly what 10_state.md R31 gives the block; `State` adds the
build (fixed for a machine) and the environment's side of the ports (20_memory.md R73) as plain data. Every field of
`Block` resets to the value of 70_reset_and_hazards.md R331. -/

namespace Sys2Proof.Machine

/-- Axis index 0 is X and axis index 1 is Y (00_scope.md R8). -/
inductive Axis where
  | x
  | y
deriving DecidableEq, Repr

/-- One datum for each of the two axes (00_scope.md R8). -/
structure PerAxis (α : Type) where
  x : α
  y : α
deriving DecidableEq, Repr

/-- CTRL (10_state.md R34). -/
structure Ctrl where
  /-- EN, bit [0]. -/
  en : Bool
  /-- FMT, bit [1]: false is the batch status format, true the single-update one. -/
  fmt : Bool
  /-- RES, bits [3:2]: 0 Bits8, 1 Bits10, 2 Bits12, 3 reserved. -/
  res : BitVec 2
  /-- LED_INIT, bit [4]. -/
  ledInit : Bool
deriving DecidableEq, Repr

/-- The configuration of one axis (10_state.md R46 to R49). -/
structure AxisConfig where
  center : BitVec 16
  deadZone : BitVec 16
  window : Word
  rank : Word
  inverted : Bool
deriving DecidableEq, Repr

/-- A transformed reading, a value in 0..65536 held in 17 bits (10_state.md R53, 41_axis_sampler.md R162). -/
abbrev Reading := BitVec 17

/-- An acquisition channel (10_state.md R53). `acq buf` is ACQ(n, buf) with n the length of buf (assumption log 6). -/
inductive Channel where
  | idle
  | acq (buf : List Reading)
deriving DecidableEq, Repr

/-- One entry of the filter table (10_state.md R50). -/
structure CanFilter where
  address : Word
  mask : Word
  en : Bool
  ext : Bool
deriving DecidableEq, Repr

/-- The LedTarget of an indicator: TARGET's seven held values (10_state.md R52); the value 7 is never held. -/
inductive LedTarget where
  | off
  | on
  | slowBlink
  | medBlink
  | fastBlink
  | fallback (v : Bool)
deriving DecidableEq, Repr

/-- One entry of the LED state table (10_state.md R51). -/
structure Led where
  target : LedTarget
  phase : Bool
  lastToggle : Word
deriving DecidableEq, Repr

/-- The transmit path's state (10_state.md R55; CTRL.RES stands in `Ctrl`). -/
structure TxPath where
  /-- AXC_CENTER_DZ, AXC_WINDOW, AXC_RANK, AXC_FLAGS of each axis. -/
  axc : PerAxis AxisConfig
  /-- AXV_X and AXV_Y (R39). -/
  axv : PerAxis (BitVec 16)
  /-- STATUS.VALID_X and VALID_Y (R35). -/
  valid : PerAxis Bool
  /-- ch[0] and ch[1] (R53); STATUS.BUSY_a is a view of them. -/
  ch : PerAxis Channel
  /-- BTN (R40), at most 8 buttons. -/
  btn : BitVec 8
  /-- STATUS.BTN_VALID (R35). -/
  btnValid : Bool
  /-- FRAME_LO (R41). -/
  frameLo : Word
  /-- FRAME_HI (R41). -/
  frameHi : Word
  /-- STATUS.FRAME_VALID (R35). -/
  frameValid : Bool
deriving DecidableEq, Repr

/-- The receive path's state (10_state.md R55; CTRL.FMT and CTRL.LED_INIT stand in `Ctrl`). -/
structure RxPath where
  /-- The filter table, N_FILTERS entries (R50). -/
  filters : List CanFilter
  /-- RX_ID (R42). -/
  rxId : Word
  /-- RX_LEN.LEN (R43). -/
  rxLen : BitVec 4
  /-- RX_DATA_LO (R44). -/
  rxDataLo : Word
  /-- RX_DATA_HI (R44). -/
  rxDataHi : Word
  /-- STATUS.RX_ACCEPTED (R35). -/
  rxAccepted : Bool
  /-- The LED state table, N_LEDS entries (R51); LED_OUT is a view of it (R45). -/
  leds : List Led
deriving DecidableEq, Repr

/-- The block's architectural state: this and nothing else (10_state.md R31, R54). -/
structure Block where
  ctrl : Ctrl
  /-- ERR bits [10:0] (R36). -/
  err : BitVec 11
  /-- NOW (R38). -/
  now : Word
  tx : TxPath
  rx : RxPath
deriving DecidableEq, Repr

/-- The ERR bits; the cause code is the bit number (10_state.md R36, 60_exceptions.md R301). -/
inductive ErrBit where
  | cmdIllegal
  | cmdDisabled
  | cfgLocked
  | cfgInvalid
  | overrun
  | notValid
  | txFail
  | rxLen
  | busErr
  | clamped
  | fallback
deriving DecidableEq, Repr

/-- What the block's environment can deliver (60_exceptions.md R312), and the two program lines that give the next
draw's answer (30_encoding.md R112). -/
inductive Input where
  /-- A host access: a format-B word (30_encoding.md R103). -/
  | access (w : BitVec 45)
  /-- A reading on adc[a] (41_axis_sampler.md R163). -/
  | adc (a : Axis) (v : BitVec 16)
  /-- A millisecond strobe (45_led_fsm.md R261). -/
  | msStrobe
  /-- A reset event (70_reset_and_hazards.md R332). -/
  | rst
  /-- `@PINS b`: the raw levels the next LATCH_BTN samples. -/
  | pins (b : Byte)
  /-- `@TX r`: the answer to the next SEND. -/
  | txAnswer (r : TxResult)
deriving DecidableEq, Repr

/-- The 8 payload bytes of a joystick frame, in payload order (43_frame_packer.md R203, 20_memory.md R77). -/
structure Payload where
  b0 : Byte
  b1 : Byte
  b2 : Byte
  b3 : Byte
  b4 : Byte
  b5 : Byte
  b6 : Byte
  b7 : Byte
deriving DecidableEq, Repr

/-- One transaction of the tx port (20_memory.md R73, R75). -/
structure TxFrame where
  id : Word
  ext : Bool
  payload : Payload
deriving DecidableEq, Repr

/-- The environment's side of the ports, the model's own data and no state of the block (assumption log 1, 3, 9). -/
structure Ports where
  /-- What the agents deliver next, oldest first. -/
  inputs : List Input
  /-- The levels scripted for the next LATCH_BTN, if any. -/
  pinsNext : Option Byte
  /-- The answer scripted for the next SEND, if any. -/
  txNext : Option TxResult
  /-- How many free draws were made. -/
  draws : Nat
  /-- The data the bus has returned to RD accesses, oldest first. -/
  reads : List Word
  /-- The frames handed to the transport, oldest first. -/
  sent : List TxFrame
deriving DecidableEq, Repr

/-- The machine: its build, its block, and its ports. -/
structure State where
  build : Build
  block : Block
  port : Ports
deriving DecidableEq, Repr

/-- Why the machine stops. The spec's block never does (93_implementation_defined.md: no item is a fault); both
reasons are raised only in states that no run from reset reaches (`State.Inv`, Safety.lean). -/
inductive Fault where
  /-- Raised by the reading that completes an acquisition whose RANK is not below the number of readings. The spec
  rules it out at enable (40_host_bus.md R135) and calls the selection undefined (92 D6). Safe: the model stops. -/
  | selectionUndefined
  /-- Raised by ENCODE with RES = 3 while enabled, which "cannot be in force" (43_frame_packer.md R204). Safe: the
  model stops. -/
  | resolutionUndefined
deriving DecidableEq, Repr

/-- Why the machine has no meaning for an input. -/
inductive Refusal where
  /-- Raised by an arm of exec whose instruction has no meaning yet (none has this now). Safe. -/
  | notModelled (mnemonic : String)
  /-- Raised by step on a host access that encodes no transaction, which "never reaches the block"
  (30_encoding.md R103, 93 I14: refuse). Safe. -/
  | notATransaction
deriving DecidableEq, Repr

/-- What a meaning answers. -/
abbrev Result := Host.Outcome State Fault Refusal

/-- The reset value of an axis's configuration (70_reset_and_hazards.md R331). -/
def AxisConfig.reset : AxisConfig := { center := 0, deadZone := 0, window := 0, rank := 0, inverted := false }

/-- The reset value of a filter entry (70_reset_and_hazards.md R331). -/
def CanFilter.reset : CanFilter := { address := 0, mask := 0, en := false, ext := false }

/-- The reset value of an indicator (70_reset_and_hazards.md R331). -/
def Led.reset : Led := { target := .off, phase := false, lastToggle := 0 }

/-- The reset value of CTRL: disabled, batch format, Bits8, LED_INIT = 0 (70_reset_and_hazards.md R331). -/
def Ctrl.reset : Ctrl := { en := false, fmt := false, res := 0, ledInit := false }

/-- ResetState of the transmit path (70_reset_and_hazards.md R331). -/
def TxPath.reset : TxPath :=
  { axc := { x := AxisConfig.reset, y := AxisConfig.reset }, axv := { x := 0, y := 0 },
    valid := { x := false, y := false }, ch := { x := .idle, y := .idle }, btn := 0, btnValid := false,
    frameLo := 0, frameHi := 0, frameValid := false }

/-- ResetState of the receive path of a build (70_reset_and_hazards.md R331). -/
def RxPath.reset (b : Build) : RxPath :=
  { filters := List.replicate b.nFilters CanFilter.reset, rxId := 0, rxLen := 0, rxDataLo := 0, rxDataHi := 0,
    rxAccepted := false, leds := List.replicate b.nLeds Led.reset }

/-- ResetState: every piece of the block's state at the value 70_reset_and_hazards.md R331 gives it. -/
def Block.reset (b : Build) : Block :=
  { ctrl := Ctrl.reset, err := 0, now := 0, tx := TxPath.reset, rx := RxPath.reset b }

/-- The ports with nothing delivered, scripted, drawn, returned or sent (assumption log 1, 3, 9: DESIGN CHOICE). -/
def Ports.empty : Ports :=
  { inputs := [], pinsNext := none, txNext := none, draws := 0, reads := [], sent := [] }

/-- A machine of the given build right after reset. -/
def State.resetOf (b : Build) : State := { build := b, block := Block.reset b, port := Ports.empty }

/-- The machine right after reset, with the spec's default build (00_scope.md R9 to R12). -/
def State.reset : State := State.resetOf Config.defaultBuild

end Sys2Proof.Machine
end

