-- ==== Sys2Proof/Machine/Ops.lean ====
section
/-! DEFINITION. The shared operations over the state: the per-axis registers, recording an error or an information
event (the only "exception" the block has, 60_exceptions.md R305) and clearing them (R307), the EN check of an issued
command, ResetState, and the draws and outputs of the ports. -/

namespace Sys2Proof.Machine

/-- The datum of axis `a`. -/
def PerAxis.get {α : Type} (p : PerAxis α) : Axis → α
  | .x => p.x
  | .y => p.y

/-- The pair with axis `a`'s datum replaced. -/
def PerAxis.set {α : Type} (p : PerAxis α) (a : Axis) (v : α) : PerAxis α :=
  match a with
  | .x => { p with x := v }
  | .y => { p with y := v }

/-- A change of the block alone. -/
def State.onBlock (f : Block → Block) (s : State) : State := { s with block := f s.block }

/-- A change of the transmit path alone. -/
def Block.onTx (f : TxPath → TxPath) (b : Block) : Block := { b with tx := f b.tx }

/-- A change of the receive path alone. -/
def Block.onRx (f : RxPath → RxPath) (b : Block) : Block := { b with rx := f b.rx }

/-- The bit number of an ERR flag, which is its cause code (10_state.md R36, 60_exceptions.md R301). -/
def ErrBit.index : ErrBit → Nat
  | .cmdIllegal => 0
  | .cmdDisabled => 1
  | .cfgLocked => 2
  | .cfgInvalid => 3
  | .overrun => 4
  | .notValid => 5
  | .txFail => 6
  | .rxLen => 7
  | .busErr => 8
  | .clamped => 9
  | .fallback => 10

/-- Set one sticky ERR bit: `raise Error(F)` and `note Info(F)` (00_scope.md R18). It is all that taking an error
does: no state is saved and no control is transferred (60_exceptions.md R301, R305). -/
def Block.raise (e : ErrBit) (b : Block) : Block := { b with err := b.err ||| BitVec.twoPow 11 e.index }

/-- `note Info(F)` when `c` holds (00_scope.md R18). -/
def Block.noteIf (c : Bool) (e : ErrBit) (b : Block) : Block := if c then b.raise e else b

/-- `raise Error(F)`: the operation ends with no effect but the sticky bit (00_scope.md R18, 60_exceptions.md R302). -/
def State.raise (e : ErrBit) (s : State) : State := s.onBlock (Block.raise e)

/-- WriteERR, the only way back besides a reset: the bits written as 1 are cleared (40_host_bus.md R134). -/
def Block.clearErrors (d : Word) (b : Block) : Block := { b with err := b.err &&& ~~~(d.setWidth 11) }

/-- IssueCmd's check of CTRL.EN, for every command but NOP and SOFT_RESET (40_host_bus.md R133). -/
def whenEnabled (run : State → Result) (s : State) : Result :=
  if s.block.ctrl.en then run s else .next (s.raise .cmdDisabled)

/-- ResetState(): the whole block, and nothing outside it (70_reset_and_hazards.md R331, R332). -/
def State.resetState (s : State) : State := { s with block := Block.reset s.build }

/-- `draw PINS()` (00_scope.md R18): the scripted levels if a program gave them, else a free value. -/
def State.drawnPins (s : State) : Byte := s.port.pinsNext.getD (Config.freePins s.port.draws)

/-- The ports after `draw PINS()`: the script is used up, or the free-draw counter has advanced. -/
def State.afterPins (s : State) : State :=
  match s.port.pinsNext with
  | some _ => { s with port := { s.port with pinsNext := none } }
  | none => { s with port := { s.port with draws := s.port.draws + 1 } }

/-- `draw TXRESULT()` (00_scope.md R18): the scripted answer if a program gave one, else a free value. -/
def State.drawnTx (s : State) : TxResult := s.port.txNext.getD (Config.freeTx s.port.draws)

/-- The ports after `draw TXRESULT()`. -/
def State.afterTx (s : State) : State :=
  match s.port.txNext with
  | some _ => { s with port := { s.port with txNext := none } }
  | none => { s with port := { s.port with draws := s.port.draws + 1 } }

/-- `emit TX(id, ext, payload)` (00_scope.md R18): hand one frame to the transport port. -/
def State.emit (f : TxFrame) (s : State) : State := { s with port := { s.port with sent := s.port.sent ++ [f] } }

/-- Return a word on the bus to an RD (20_memory.md R73). -/
def State.returnData (v : Word) (s : State) : State := { s with port := { s.port with reads := s.port.reads ++ [v] } }

/-- The state with the list of coming inputs replaced. -/
def State.setInputs (l : List Input) (s : State) : State := { s with port := { s.port with inputs := l } }

/-- The state in which `i` is the next input. -/
def State.withInput (i : Input) (s : State) : State := s.setInputs (i :: s.port.inputs)

end Sys2Proof.Machine
end

