-- ==== Sys2Proof/Machine/Operands.lean ====
section
/-! DEFINITION. The operand forms: a 12-bit address (which register it names, 20_memory.md R72), SAMPLE's ARG
(30_encoding.md R104), and the payload bytes held in register pairs (20_memory.md R76). -/

namespace Sys2Proof.Machine

/-- The registers of the map of 20_memory.md R72. -/
inductive Reg where
  | ctrl
  | status
  | err
  | cmd
  | now
  | axv (a : Axis)
  | btn
  | frameLo
  | frameHi
  | rxId
  | rxLen
  | rxDataLo
  | rxDataHi
  | ledOut
  | axcCenterDz (a : Axis)
  | axcWindow (a : Axis)
  | axcRank (a : Axis)
  | axcFlags (a : Axis)
  | fltAddr (f : Nat)
  | fltMask (f : Nat)
  | fltCtl (f : Nat)
  | ledState (i : Nat)
  | ledLt (i : Nat)
deriving DecidableEq, Repr

/-- The access codes of 10_state.md R33. -/
inductive Access where
  | rw
  | ro
  | wo
  | w1c
  | rwl
deriving DecidableEq, Repr

/-- The two kinds of host access (20_memory.md R80). -/
inductive BusOp where
  | rd
  | wr
deriving DecidableEq, Repr

/-- The axis ARG names; any other ARG is illegal (30_encoding.md R104). -/
def axisOfArg (arg : BitVec 8) : Option Axis :=
  if arg = 0 then some .x else if arg = 1 then some .y else none

/-- The axis index (00_scope.md R8). -/
def Axis.index : Axis → Nat
  | .x => 0
  | .y => 1

/-- A register's offset (20_memory.md R72). -/
def Reg.offset : Reg → Nat
  | .ctrl => 0x000
  | .status => 0x004
  | .err => 0x008
  | .cmd => 0x00C
  | .now => 0x010
  | .axv a => 0x014 + 4 * a.index
  | .btn => 0x01C
  | .frameLo => 0x020
  | .frameHi => 0x024
  | .rxId => 0x028
  | .rxLen => 0x02C
  | .rxDataLo => 0x030
  | .rxDataHi => 0x034
  | .ledOut => 0x038
  | .axcCenterDz a => 0x040 + 0x10 * a.index
  | .axcWindow a => 0x044 + 0x10 * a.index
  | .axcRank a => 0x048 + 0x10 * a.index
  | .axcFlags a => 0x04C + 0x10 * a.index
  | .fltAddr f => 0x080 + 0x10 * f
  | .fltMask f => 0x084 + 0x10 * f
  | .fltCtl f => 0x088 + 0x10 * f
  | .ledState i => 0x100 + 8 * i
  | .ledLt i => 0x104 + 8 * i

/-- The registers at offsets 0x000 to 0x038 (20_memory.md R72). -/
def lowRegs : List Reg :=
  [.ctrl, .status, .err, .cmd, .now, .axv .x, .axv .y, .btn, .frameLo, .frameHi, .rxId, .rxLen, .rxDataLo,
    .rxDataHi, .ledOut]

/-- The four configuration registers of an axis, in offset order (20_memory.md R72). -/
def axisRegs (a : Axis) : List Reg := [.axcCenterDz a, .axcWindow a, .axcRank a, .axcFlags a]

/-- The three registers of a filter entry, in offset order; +0xC is unmapped (10_state.md R50). -/
def filterRegs (f : Nat) : List Reg := [.fltAddr f, .fltMask f, .fltCtl f]

/-- The two registers of an indicator, in offset order (10_state.md R51). -/
def ledRegs (i : Nat) : List Reg := [.ledState i, .ledLt i]

/-- The register at an offset of a build, none where the offset is misaligned (20_memory.md R79) or unmapped (R72). -/
def regAtOffset (b : Build) (n : Nat) : Option Reg :=
  if n % 4 ≠ 0 then none
  else if n < 0x040 then lowRegs[n / 4]?
  else if n < 0x050 then (axisRegs .x)[(n - 0x040) / 4]?
  else if n < 0x060 then (axisRegs .y)[(n - 0x050) / 4]?
  else if n < 0x080 then none
  else if n < 0x100 then
    if (n - 0x080) / 0x10 < b.nFilters then (filterRegs ((n - 0x080) / 0x10))[(n - 0x080) % 0x10 / 4]? else none
  else if n < 0x180 then
    if (n - 0x100) / 8 < b.nLeds then (ledRegs ((n - 0x100) / 8))[(n - 0x100) % 8 / 4]? else none
  else none

/-- The register an access names. -/
def regAt (b : Build) (addr : Addr) : Option Reg := regAtOffset b addr.toNat

/-- A register's access code (20_memory.md R72); CTRL is RW / RWL by field, and its own rule splits it. -/
def Reg.access : Reg → Access
  | .ctrl => .rw
  | .status => .ro
  | .err => .w1c
  | .cmd => .wo
  | .now => .ro
  | .axv _ => .ro
  | .btn => .ro
  | .frameLo => .ro
  | .frameHi => .ro
  | .rxId => .rw
  | .rxLen => .rw
  | .rxDataLo => .rw
  | .rxDataHi => .rw
  | .ledOut => .ro
  | .axcCenterDz _ => .rwl
  | .axcWindow _ => .rwl
  | .axcRank _ => .rwl
  | .axcFlags _ => .rwl
  | .fltAddr _ => .rwl
  | .fltMask _ => .rwl
  | .fltCtl _ => .rwl
  | .ledState _ => .ro
  | .ledLt _ => .ro

/-- BusCheck: the register an access reaches, none where it is refused (20_memory.md R80). -/
def busCheck (op : BusOp) (b : Build) (addr : Addr) : Option Reg :=
  match regAt b addr with
  | none => none
  | some r => if op = .wr ∧ r.access = .ro then none else some r

/-- Byte lane `n` of a register (20_memory.md R76). -/
def lane (n : Nat) (w : Word) : Byte := w.extractLsb' (8 * n) 8

/-- A register from its four lanes, lane 0 in the lowest bits (20_memory.md R76). -/
def ofLanes (l0 l1 l2 l3 : Byte) : Word :=
  l0.setWidth 32 ||| (l1.setWidth 32 <<< 8) ||| (l2.setWidth 32 <<< 16) ||| (l3.setWidth 32 <<< 24)

/-- FRAME_LO of a payload (10_state.md R41). -/
def Payload.lo (p : Payload) : Word := ofLanes p.b0 p.b1 p.b2 p.b3

/-- FRAME_HI of a payload (10_state.md R41). -/
def Payload.hi (p : Payload) : Word := ofLanes p.b4 p.b5 p.b6 p.b7

/-- The payload a register pair holds (20_memory.md R76). -/
def Payload.ofRegs (lo hi : Word) : Payload :=
  { b0 := lane 0 lo, b1 := lane 1 lo, b2 := lane 2 lo, b3 := lane 3 lo,
    b4 := lane 0 hi, b5 := lane 1 hi, b6 := lane 2 hi, b7 := lane 3 hi }

/-- The bytes of a payload as an array indexed 0..7 (20_memory.md R77). -/
def Payload.bytes (p : Payload) : List Byte := [p.b0, p.b1, p.b2, p.b3, p.b4, p.b5, p.b6, p.b7]

/-- The bytes of the frame in the RX registers: a byte at index RX_LEN or above is absent (10_state.md R44). -/
def RxPath.bytes (r : RxPath) : List Byte := (Payload.ofRegs r.rxDataLo r.rxDataHi).bytes.take r.rxLen.toNat

end Sys2Proof.Machine
end

