-- ==== Sys2Proof/Machine/Flags.lean ====
section
/-! DEFINITION. The flags of STATUS (10_state.md R35) and the register images a read returns (40_host_bus.md R131). -/

namespace Sys2Proof.Machine

/-- A channel is acquiring. -/
def Channel.isAcq : Channel → Bool
  | .idle => false
  | .acq _ => true

/-- n of ACQ(n, buf): the number of readings taken so far (10_state.md R53). -/
def Channel.count : Channel → Nat
  | .idle => 0
  | .acq buf => buf.length

/-- STATUS.BUSY_a: 1 exactly when ch[a] is ACQ (10_state.md R35). -/
def Block.busy (a : Axis) (b : Block) : Bool := (b.tx.ch.get a).isAcq

/-- The three inputs of a frame are fresh: VALID_X, VALID_Y and BTN_VALID (43_frame_packer.md R201). -/
def TxPath.fresh (t : TxPath) : Bool := t.valid.x && t.valid.y && t.btnValid

/-- ENCODE consumes its inputs (43_frame_packer.md R201). -/
def TxPath.consumeInputs (t : TxPath) : TxPath := { t with valid := { x := false, y := false }, btnValid := false }

/-- A disable drops every VALID bit and abandons both acquisitions (40_host_bus.md R139). -/
def TxPath.abandon (t : TxPath) : TxPath :=
  { t with ch := { x := .idle, y := .idle }, valid := { x := false, y := false }, btnValid := false, frameValid := false }

/-- A flag at bit `n` of an image. -/
def flagAt (n : Nat) (v : Bool) : Word := if v then BitVec.twoPow 32 n else 0

/-- CTRL's image (10_state.md R34). -/
def Ctrl.image (c : Ctrl) : Word :=
  flagAt 0 c.en ||| flagAt 1 c.fmt ||| (c.res.setWidth 32 <<< 2) ||| flagAt 4 c.ledInit

/-- The CTRL a data word writes, reserved bits discarded (40_host_bus.md R136). -/
def Ctrl.ofWord (d : Word) : Ctrl :=
  { en := d.getLsbD 0, fmt := d.getLsbD 1, res := d.extractLsb' 2 2, ledInit := d.getLsbD 4 }

/-- CTRL[4:1], the configuration fields (40_host_bus.md R136). -/
def Ctrl.config (c : Ctrl) : Bool × BitVec 2 × Bool := (c.fmt, c.res, c.ledInit)

/-- STATUS's image (10_state.md R35). -/
def Block.statusImage (b : Block) : Word :=
  flagAt 0 (b.busy .x) ||| flagAt 1 (b.busy .y) ||| flagAt 2 b.tx.valid.x ||| flagAt 3 b.tx.valid.y |||
    flagAt 4 b.tx.btnValid ||| flagAt 5 b.tx.frameValid ||| flagAt 6 b.rx.rxAccepted

/-- TARGET's 3-bit code (10_state.md R52). -/
def LedTarget.code : LedTarget → BitVec 3
  | .off => 0
  | .on => 1
  | .slowBlink => 2
  | .medBlink => 3
  | .fastBlink => 4
  | .fallback false => 5
  | .fallback true => 6

/-- LED_STATE[i]'s image (10_state.md R51). -/
def Led.stateImage (l : Led) : Word := l.target.code.setWidth 32 ||| flagAt 4 l.phase

/-- LED_OUT: bit i is the visible output of indicator i (10_state.md R45). -/
def ledOutOf : List Led → Word
  | [] => 0
  | l :: rest => (ledOutOf rest <<< 1) ||| flagAt 0 l.phase

/-- FLT_CTL[f]'s image (10_state.md R50). -/
def CanFilter.ctlImage (f : CanFilter) : Word := flagAt 0 f.en ||| flagAt 1 f.ext

/-- Image(addr): a register's fields at their bit positions, reserved bits 0 (40_host_bus.md R131). CMD reads 0
(10_state.md R37). A table entry that is absent reads 0: no mapped register of a reachable state (assumption log 18). -/
def Block.image (b : Block) : Reg → Word
  | .ctrl => b.ctrl.image
  | .status => b.statusImage
  | .err => b.err.setWidth 32
  | .cmd => 0
  | .now => b.now
  | .axv a => (b.tx.axv.get a).setWidth 32
  | .btn => b.tx.btn.setWidth 32
  | .frameLo => b.tx.frameLo
  | .frameHi => b.tx.frameHi
  | .rxId => b.rx.rxId
  | .rxLen => b.rx.rxLen.setWidth 32
  | .rxDataLo => b.rx.rxDataLo
  | .rxDataHi => b.rx.rxDataHi
  | .ledOut => ledOutOf b.rx.leds
  | .axcCenterDz a => ((b.tx.axc.get a).deadZone.setWidth 32 <<< 16) ||| (b.tx.axc.get a).center.setWidth 32
  | .axcWindow a => (b.tx.axc.get a).window
  | .axcRank a => (b.tx.axc.get a).rank
  | .axcFlags a => flagAt 0 (b.tx.axc.get a).inverted
  | .fltAddr f => (b.rx.filters[f]?.map CanFilter.address).getD 0
  | .fltMask f => (b.rx.filters[f]?.map CanFilter.mask).getD 0
  | .fltCtl f => (b.rx.filters[f]?.map CanFilter.ctlImage).getD 0
  | .ledState i => (b.rx.leds[i]?.map Led.stateImage).getD 0
  | .ledLt i => (b.rx.leds[i]?.map Led.lastToggle).getD 0

end Sys2Proof.Machine
end

