-- ==== Sys2Proof/Machine/Buttons.lean ====
section
/-! DEFINITION. The button bank (42_button_bank.md): LATCH_BTN. -/

namespace Sys2Proof.Machine

/-- The bits of the buttons a build has. -/
def buttonMask (n : Nat) : BitVec 8 := BitVec.ofNat 8 (2 ^ n - 1)

/-- The button vector of raw levels: active-low, so pressed is NOT the raw level (R191, R192). -/
def pressed (nButtons : Nat) (raw : Byte) : BitVec 8 := ~~~raw &&& buttonMask nButtons

/-- BTN takes a new vector and BTN_VALID is set (R191). -/
def TxPath.latch (v : BitVec 8) (t : TxPath) : TxPath := { t with btn := v, btnValid := true }

/-- LATCH_BTN past the check of CTRL.EN: the pins are drawn once, in this step (R191, R194). -/
def latchPins (s : State) : Result :=
  .next (s.afterPins.onBlock (Block.onTx (TxPath.latch (pressed s.build.nButtons s.drawnPins))))

/-- LATCH_BTN (R191). -/
def execLatchBtn (s : State) : Result := whenEnabled latchPins s

end Sys2Proof.Machine
end

