-- ==== Sys2Proof/Machine/FramePacker.lean ====
section
/-! DEFINITION. The frame packer (43_frame_packer.md): ENCODE and SEND. -/

namespace Sys2Proof.Machine

/-- Resolution {Bits8, Bits10, Bits12} (R204). -/
inductive Resolution where
  | bits8
  | bits10
  | bits12
deriving DecidableEq, Repr

/-- res in {8, 10, 12} (R204). -/
def Resolution.bits : Resolution → Nat
  | .bits8 => 8
  | .bits10 => 10
  | .bits12 => 12

/-- ResBits(CTRL.RES); RES = 3 is no resolution (R204). -/
def resOf (res : BitVec 2) : Option Resolution :=
  if res = 0 then some .bits8 else if res = 1 then some .bits10 else if res = 2 then some .bits12 else none

/-- S = 15 - res (R205). -/
def Resolution.shift (r : Resolution) : Nat := 15 - r.bits

/-- n of Rescale: v / 2^S rounded, an exact tie by ROUND_TIES (R205). -/
def roundShift (ties : RoundTies) (S v : Nat) : Nat :=
  let q := v / 2 ^ S
  let r := v % 2 ^ S
  let h := 2 ^ (S - 1)
  if h < r then q + 1
  else if r < h then q
  else
    match ties with
    | .halfUp => q + 1
    | .halfEven => q + q % 2

/-- Rescale(v, res), in [-2^res, 2^res] (R205). -/
def rescale (ties : RoundTies) (res : Resolution) (v : BitVec 16) : Int :=
  (roundShift ties res.shift v.toNat : Int) - 2 ^ res.bits

/-- The largest scaled value, 2^res - 1 (R204). -/
def Resolution.top (res : Resolution) : Int := 2 ^ res.bits - 1

/-- Clamp(s) changes s (R206). -/
def isClamped (res : Resolution) (s : Int) : Bool := decide (res.top < s)

/-- Clamp(s) (R206). -/
def clamp (res : Resolution) (s : Int) : Int := min s res.top

/-- Base(res, axis) (R209's table). -/
def baseByte : Resolution → Axis → Byte
  | .bits12, .x => 0x03
  | .bits12, .y => 0x03
  | .bits10, .x => 0x03
  | .bits10, .y => 0x00
  | .bits8, .x => 0x00
  | .bits8, .y => 0x00

/-- m = |scaled| as an unsigned 16-bit value (R208). -/
def magnitude (s : Int) : BitVec 16 := BitVec.ofNat 16 s.natAbs

/-- hi = m[15:8] (R208). -/
def magHi (s : Int) : Byte := (magnitude s).extractLsb' 8 8

/-- lo = m[7:0], byte 1 or byte 3 (R208). -/
def magLo (s : Int) : Byte := (magnitude s).extractLsb' 0 8

/-- AxisByte(s, res, axis), byte 0 or byte 2 (R209, R208). -/
def axisByte (res : Resolution) (axis : Axis) (s : Int) : Byte :=
  (baseByte res axis ||| (if s < 0 then 0x10#8 else 0x00#8)) ||| ((magHi s <<< 6) &&& 0xC0#8) ||| (magHi s &&& 0x0C#8)

/-- A button's OR value where it is pressed (R210). -/
def buttonBit (btn : BitVec 8) (i : Nat) (v : Byte) : Byte := if btn.getLsbD i then v else 0

/-- Byte 5 (R210). -/
def buttonByte5 (btn : BitVec 8) : Byte :=
  buttonBit btn 0 0x40 ||| buttonBit btn 1 0x10 ||| buttonBit btn 2 0x04 ||| buttonBit btn 3 0x01

/-- Byte 6 (R210). -/
def buttonByte6 (btn : BitVec 8) : Byte := buttonBit btn 4 0x04 ||| buttonBit btn 5 0x40

/-- Encode(x, y, btn, res): the payload of the clamped scaled values (R212). -/
def encodePayload (ties : RoundTies) (res : Resolution) (x y : BitVec 16) (btn : BitVec 8) : Payload :=
  let sx := clamp res (rescale ties res x)
  let sy := clamp res (rescale ties res y)
  { b0 := axisByte res .x sx, b1 := magLo sx, b2 := axisByte res .y sy, b3 := magLo sy, b4 := Config.marker4,
    b5 := buttonByte5 btn, b6 := buttonByte6 btn, b7 := Config.marker7 }

/-- Encode's second result: an axis was clamped (R212). -/
def encodeClamped (ties : RoundTies) (res : Resolution) (x y : BitVec 16) : Bool :=
  isClamped res (rescale ties res x) || isClamped res (rescale ties res y)

/-- The frame registers take a payload and FRAME_VALID is set (R201). -/
def TxPath.setFrame (p : Payload) (t : TxPath) : TxPath :=
  { t with frameLo := p.lo, frameHi := p.hi, frameValid := true }

/-- ENCODE on fresh inputs (R201). -/
def Block.packFrame (ties : RoundTies) (res : Resolution) (b : Block) : Block :=
  (b.onTx fun t => (t.setFrame (encodePayload ties res t.axv.x t.axv.y t.btn)).consumeInputs).noteIf
    (encodeClamped ties res b.tx.axv.x b.tx.axv.y) .clamped

/-- ENCODE past the check of CTRL.EN (R201). -/
def encodeFrame (s : State) : Result :=
  if s.block.tx.fresh then
    match resOf s.block.ctrl.res with
    | none => .fault .resolutionUndefined
    | some res => .next (s.onBlock (Block.packFrame s.build.roundTies res))
  else .next (s.raise .notValid)

/-- ENCODE (R201). -/
def execEncode (s : State) : Result := whenEnabled encodeFrame s

/-- The tx transaction of the frame registers (20_memory.md R75, R213). -/
def TxPath.txFrame (t : TxPath) : TxFrame :=
  { id := Config.txId, ext := true, payload := Payload.ofRegs t.frameLo t.frameHi }

/-- The frame is spent: FRAME_VALID <- 0, FRAME_LO and FRAME_HI kept (R213). -/
def TxPath.spendFrame (t : TxPath) : TxPath := { t with frameValid := false }

/-- The block after a SEND the transport answered with `r`: not retried (R213). -/
def Block.afterSend (r : TxResult) (b : Block) : Block :=
  (b.onTx TxPath.spendFrame).noteIf (decide (r = .fail)) .txFail

/-- SEND past the check of CTRL.EN: the answer comes in the same step (R213). -/
def sendFrame (s : State) : Result :=
  if s.block.tx.frameValid then
    .next ((s.emit s.block.tx.txFrame).afterTx.onBlock (Block.afterSend s.drawnTx))
  else .next (s.raise .notValid)

/-- SEND (R213). -/
def execSend (s : State) : Result := whenEnabled sendFrame s

/-- DecodeAxis, the reference decoder of R216: test-side only, no part of the block. -/
def decodeAxis (res : Resolution) (b0 b1 : Byte) : Int :=
  let hi := ((b0 >>> 6) &&& 0x03#8) ||| (b0 &&& 0x0C#8)
  let m := hi.toNat * 256 + b1.toNat
  if b0 &&& 0x10#8 = 0 then (m : Int) else if m = 0 then -(2 ^ res.bits : Int) else -(m : Int)

end Sys2Proof.Machine
end

