-- ==== Sys2Proof/Machine/Sampler.lean ====
section
/-! DEFINITION. The axis sampler (41_axis_sampler.md): SAMPLE, the readings of an acquisition, and its resolution. -/

namespace Sys2Proof.Machine

/-- T(raw): the reading, or 65536 minus it where the axis is inverted, exactly, in 17 bits (R162). -/
def transform (inverted : Bool) (raw : BitVec 16) : Reading :=
  if inverted then BitVec.ofNat 17 (65536 - raw.toNat) else raw.setWidth 17

/-- `x` placed in a non-decreasing list. -/
def insertAsc (x : Reading) : List Reading → List Reading
  | [] => [x]
  | y :: rest => if x.toNat ≤ y.toNat then x :: y :: rest else y :: insertAsc x rest

/-- sortAsc(L): L in non-decreasing order (00_scope.md R18); any method conforms (R169). -/
def sortAsc : List Reading → List Reading
  | [] => []
  | x :: rest => insertAsc x (sortAsc rest)

/-- sel: the element of rank K of the sorted readings, none where K is not below their number (R164). -/
def select (rank : Word) (buf : List Reading) : Option Reading := (sortAsc buf)[rank.toNat]?

/-- DeadZone(sel): the center where the distance to it, taken as integers, is below the dead zone (R165). -/
def deadZone (center dz : BitVec 16) (sel : Nat) : Nat :=
  if ((sel : Int) - (center.toNat : Int)).natAbs < dz.toNat then center.toNat else sel

/-- Out(d): saturation to 16 bits (R166). -/
def saturate (d : Nat) : BitVec 16 := BitVec.ofNat 16 (min d 65535)

/-- Resolve(buf): selection, dead zone, saturation (R167). -/
def resolve (cfg : AxisConfig) (buf : List Reading) : Option (BitVec 16) :=
  (select cfg.rank buf).map fun sel => saturate (deadZone cfg.center cfg.deadZone sel.toNat)

/-- SAMPLE(a) past IssueCmd's checks, on an idle channel (R161). -/
def TxPath.startAcquisition (a : Axis) (t : TxPath) : TxPath :=
  { t with valid := t.valid.set a false, ch := t.ch.set a (.acq []) }

/-- The buffer grows by one reading: `ch[a] <- ACQ(n, buf)` (R163). -/
def TxPath.storeReadings (a : Axis) (buf : List Reading) (t : TxPath) : TxPath :=
  { t with ch := t.ch.set a (.acq buf) }

/-- Complete(a, value) (R168). -/
def TxPath.complete (a : Axis) (value : BitVec 16) (t : TxPath) : TxPath :=
  { t with axv := t.axv.set a value, valid := t.valid.set a true, ch := t.ch.set a .idle }

/-- The buffer of an acquiring channel after a raw reading (R163). -/
def TxPath.nextBuf (a : Axis) (buf : List Reading) (v : BitVec 16) (t : TxPath) : List Reading :=
  buf ++ [transform (t.axc.get a).inverted v]

/-- SAMPLE on axis `a`, past the check of CTRL.EN (R161). -/
def sampleAxis (a : Axis) (s : State) : Result :=
  match s.block.tx.ch.get a with
  | .acq _ => .next (s.raise .overrun)
  | .idle => .next (s.onBlock (Block.onTx (TxPath.startAcquisition a)))

/-- SAMPLE arg (R161). An ARG that names no axis is CMD_ILLEGAL, which comes before CMD_DISABLED
(60_exceptions.md R303). -/
def execSample (arg : BitVec 8) (s : State) : Result :=
  match axisOfArg arg with
  | none => .next (s.raise .cmdIllegal)
  | some a => whenEnabled (sampleAxis a) s

/-- AdcEvent(a, v): one reading on adc[a] (R163). A reading on an idle channel leaves no trace. -/
def adcEvent (a : Axis) (v : BitVec 16) (s : State) : Result :=
  match s.block.tx.ch.get a with
  | .idle => .next s
  | .acq buf =>
    let buf' := s.block.tx.nextBuf a buf v
    if buf'.length = (s.block.tx.axc.get a).window.toNat then
      match resolve (s.block.tx.axc.get a) buf' with
      | none => .fault .selectionUndefined
      | some value => .next (s.onBlock (Block.onTx (TxPath.complete a value)))
    else .next (s.onBlock (Block.onTx (TxPath.storeReadings a buf')))

end Sys2Proof.Machine
end

