-- ==== Sys2Proof/Machine/Leds.lean ====
section
/-! DEFINITION. The LED state machine and its blink timers (45_led_fsm.md): target update, TICK, the initial state at
enable, and the led_out port. -/

namespace Sys2Proof.Machine

/-- Period(t) in milliseconds; a steady target has none (R262). -/
def LedTarget.period : LedTarget → Option Nat
  | .off => none
  | .on => none
  | .slowBlink => some Config.periodSlow
  | .medBlink => some Config.periodMed
  | .fastBlink => some Config.periodFast
  | .fallback _ => none

/-- The boolean a steady target holds; a blink target holds none (R266). -/
def LedTarget.steady : LedTarget → Option Bool
  | .off => some false
  | .on => some true
  | .slowBlink => none
  | .medBlink => none
  | .fastBlink => none
  | .fallback v => some v

/-- Elapsed(i), an unsigned 32-bit difference (R263). -/
def Led.elapsed (now : Word) (l : Led) : Nat := (now - l.lastToggle).toNat

/-- ApplyTarget(i, t) on one indicator (R264). -/
def applyTarget (now : Word) (t : LedTarget) (l : Led) : Led :=
  if t = l.target then l
  else
    match t.steady with
    | some v => { l with target := t, phase := v }
    | none => { l with target := t, lastToggle := now }

/-- TICK on one indicator (R268). -/
def tickLed (now : Word) (l : Led) : Led :=
  match l.target.period with
  | none => l
  | some p => if p ≤ l.elapsed now then { l with phase := !l.phase, lastToggle := now } else l

/-- TICK advances every indicator once, at one NOW (R268). -/
def Block.tick (b : Block) : Block := b.onRx fun r => { r with leds := r.leds.map (tickLed b.now) }

/-- TICK past the check of CTRL.EN (R268). -/
def tickLeds (s : State) : Result := .next (s.onBlock Block.tick)

/-- TICK (R268). -/
def execTick (s : State) : Result := whenEnabled tickLeds s

/-- An indicator as an enable leaves it: Steady(LED_INIT), LT = NOW (40_host_bus.md R138). -/
def Led.initial (ledInit : Bool) (now : Word) : Led :=
  { target := if ledInit then .on else .off, phase := ledInit, lastToggle := now }

/-- The led_out port always carries LED_OUT (20_memory.md R74). -/
def ledPort (s : State) : Word := s.block.image .ledOut

/-- The `indicator.set(id, bool)` calls of a step: one per visible output the step changes (20_memory.md R74). -/
def indicatorCalls (before after : State) : List (Nat × Bool) :=
  (List.range before.build.nLeds).filterMap fun i =>
    if (ledPort after).getLsbD i = (ledPort before).getLsbD i then none else some (i, (ledPort after).getLsbD i)

end Sys2Proof.Machine
end

