-- ==== Sys2Proof/Machine/StatusRx.lean ====
section
/-! DEFINITION. Inbound status frames (44_status_rx.md): the filter set, the decoder, RX_FRAME. -/

namespace Sys2Proof.Machine

/-- One declared filter accepts an identifier; EXT takes no part (R232, R234). -/
def CanFilter.accepts (id : Word) (f : CanFilter) : Bool := f.en && decide (id &&& f.mask = f.address &&& f.mask)

/-- FilterMatch(id) (R232). -/
def filterMatch (filters : List CanFilter) (id : Word) : Bool := filters.any (CanFilter.accepts id)

/-- CodeToTarget: a 4-bit status code's target, the fallback rule kept exactly (R236, R237). -/
def codeToTarget (code : BitVec 4) : LedTarget :=
  if code = 0x0#4 then .on
  else if code = 0x1#4 then .off
  else if code = 0x2#4 then .slowBlink
  else if code = 0x3#4 then .medBlink
  else if code = 0x4#4 then .fastBlink
  else .fallback (decide (code.toNat % 2 = 0))

/-- The high nibble of a byte. -/
def highNibble (b : Byte) : BitVec 4 := b.extractLsb' 4 4

/-- The low nibble of a byte. -/
def lowNibble (b : Byte) : BitVec 4 := b.extractLsb' 0 4

/-- The code a batch frame carries for indicator `i`, none where it carries none: only the first 9 indicators, and
only those whose byte is present (R238). -/
def batchCode (bytes : List Byte) (i : Nat) : Option (BitVec 4) :=
  if i < 9 then bytes[i / 2]?.map fun b => if i % 2 = 0 then highNibble b else lowNibble b else none

/-- DecodeBatch on the table (R238). -/
def decodeBatch (now : Word) (bytes : List Byte) (leds : List Led) : List Led :=
  leds.mapIdx fun i l =>
    match batchCode bytes i with
    | none => l
    | some code => applyTarget now (codeToTarget code) l

/-- A decoded code of the frame is above 4, for one of the build's indicators (R238). -/
def batchFallback (nLeds : Nat) (bytes : List Byte) : Bool :=
  (List.range nLeds).any fun i =>
    match batchCode bytes i with
    | none => false
    | some code => decide (4 < code.toNat)

/-- The indicator and the target of a single-update frame, none where it updates nothing (R239). -/
def singleUpdate (nLeds : Nat) (bytes : List Byte) : Option (Nat × LedTarget) :=
  match bytes with
  | k :: b1 :: _ =>
    if k.toNat < 1 ∨ nLeds < k.toNat then none
    else some (k.toNat - 1, if highNibble b1 = 0 then .on else .off)
  | _ => none

/-- DecodeSingle on the table (R239). -/
def decodeSingle (nLeds : Nat) (now : Word) (bytes : List Byte) (leds : List Led) : List Led :=
  match singleUpdate nLeds bytes with
  | none => leds
  | some (i, t) => leds.modify i (applyTarget now t)

/-- STATUS.RX_ACCEPTED takes the result of the filter set (R231). -/
def RxPath.setAccepted (v : Bool) (r : RxPath) : RxPath := { r with rxAccepted := v }

/-- The decode of an accepted frame by the configured format; the decoder never guesses it (R231, R235). -/
def Block.decodeFrame (nLeds : Nat) (b : Block) : Block :=
  if b.ctrl.fmt then b.onRx fun r => { r with leds := decodeSingle nLeds b.now r.bytes r.leds }
  else (b.onRx fun r => { r with leds := decodeBatch b.now r.bytes r.leds }).noteIf (batchFallback nLeds b.rx.bytes) .fallback

/-- RX_FRAME past the check of CTRL.EN (R231). -/
def Block.receive (nLeds : Nat) (b : Block) : Block :=
  if 8 < b.rx.rxLen.toNat then b.raise .rxLen
  else
    let acc := filterMatch b.rx.filters b.rx.rxId
    let b' := b.onRx (RxPath.setAccepted acc)
    if acc then b'.decodeFrame nLeds else b'

/-- RX_FRAME past the check of CTRL.EN (R231). -/
def receiveFrame (s : State) : Result := .next (s.onBlock (Block.receive s.build.nLeds))

/-- RX_FRAME (R231). -/
def execRxFrame (s : State) : Result := whenEnabled receiveFrame s

end Sys2Proof.Machine
end

