-- ==== Sys2Proof/Machine/System.lean ====
section
/-! DEFINITION. The system commands (46_system.md) and the two events that are no reading: the millisecond strobe
(45_led_fsm.md R261) and reset (70_reset_and_hazards.md R332). -/

namespace Sys2Proof.Machine

/-- NOP: nothing, whether CTRL.EN is 0 or 1 (46_system.md R291). -/
def execNop (s : State) : Result := .next s

/-- SOFT_RESET: ResetState(), whether CTRL.EN is 0 or 1 (46_system.md R292). -/
def execSoftReset (s : State) : Result := .next s.resetState

/-- ms_strobe: NOW <- (NOW + 1) mod 2^32 and nothing else (45_led_fsm.md R261). -/
def strobeEvent (s : State) : Result := .next (s.onBlock fun b => { b with now := b.now + 1 })

/-- rst: ResetState(), whatever the state (70_reset_and_hazards.md R332). -/
def rstEvent (s : State) : Result := .next s.resetState

end Sys2Proof.Machine
end

