-- ==== Sys2Proof/Machine/Bus.lean ====
section
/-! DEFINITION. Host bus operations and control (40_host_bus.md): RD, WR and what a write does. -/

namespace Sys2Proof.Machine

/-- RD(addr): the image of the register, 0 and BUS_ERR where the access is refused (R131, 20_memory.md R80). -/
def execRd (addr : Addr) (s : State) : Result :=
  match busCheck .rd s.build addr with
  | none => .next ((s.raise .busErr).returnData 0)
  | some r => .next (s.returnData (s.block.image r))

/-- IssueCmd(w): the command the word decodes to, whose meaning checks CTRL.EN (R133). A command word decodes to no
bus transaction (30_encoding.md R106), so the last two arms are never taken. -/
def issueCmd (w : Word) (s : State) : Result :=
  match decodeCommand w with
  | .error _ => .next (s.raise .cmdIllegal)
  | .ok .nop => execNop s
  | .ok (.sample arg) => execSample arg s
  | .ok .latchBtn => execLatchBtn s
  | .ok .encode => execEncode s
  | .ok .send => execSend s
  | .ok .rxFrame => execRxFrame s
  | .ok .tick => execTick s
  | .ok .softReset => execSoftReset s
  | .ok (.rd _) => .next (s.raise .cmdIllegal)
  | .ok (.wr _ _) => .next (s.raise .cmdIllegal)

/-- One axis of ConfigValid (R135). -/
def axisValid (windowMax : Nat) (c : AxisConfig) : Bool :=
  decide (1 ≤ c.window.toNat ∧ c.window.toNat ≤ windowMax ∧ c.rank.toNat < c.window.toNat)

/-- ConfigValid() (R135). -/
def Block.configValid (windowMax : Nat) (b : Block) : Bool :=
  axisValid windowMax b.tx.axc.x && axisValid windowMax b.tx.axc.y && decide (b.ctrl.res ≠ 3)

/-- Enable(): every indicator starts as Steady(LED_INIT) (R138). -/
def Block.enable (nLeds : Nat) (b : Block) : Block :=
  { b with
    ctrl := { b.ctrl with en := true }
    rx := { b.rx with leds := List.replicate nLeds (Led.initial b.ctrl.ledInit b.now) } }

/-- Disable(): acquisitions are abandoned and every VALID bit is dropped (R139). -/
def Block.disable (b : Block) : Block :=
  { b with ctrl := { b.ctrl with en := false }, tx := b.tx.abandon }

/-- WriteCTRL(d) (R136). -/
def Block.writeCtrl (build : Build) (d : Word) (b : Block) : Block :=
  let new := Ctrl.ofWord d
  if b.ctrl.en then
    let b' := b.noteIf (decide (new.config ≠ b.ctrl.config)) .cfgLocked
    if new.en then b' else b'.disable
  else
    let b' := { b with ctrl := { new with en := false } }
    if new.en then (if b'.configValid build.windowMax then b'.enable build.nLeds else b'.raise .cfgInvalid) else b'

/-- StoredBits(r): the mask of an RWL register's non-reserved fields (R137). -/
def Reg.storedBits : Reg → Word
  | .axcFlags _ => 0x00000001#32
  | .fltCtl _ => 0x00000003#32
  | _ => 0xFFFFFFFF#32

/-- One axis's configuration replaced. -/
def TxPath.setAxc (a : Axis) (f : AxisConfig → AxisConfig) (t : TxPath) : TxPath :=
  { t with axc := t.axc.set a (f (t.axc.get a)) }

/-- One filter entry replaced. -/
def RxPath.setFilter (i : Nat) (f : CanFilter → CanFilter) (r : RxPath) : RxPath :=
  { r with filters := r.filters.modify i f }

/-- Store a word in an RWL register other than CTRL (10_state.md R46 to R50); no other register is stored here. -/
def Block.storeConfig (r : Reg) (d : Word) (b : Block) : Block :=
  match r with
  | .axcCenterDz a =>
    b.onTx (TxPath.setAxc a fun c => { c with center := d.extractLsb' 0 16, deadZone := d.extractLsb' 16 16 })
  | .axcWindow a => b.onTx (TxPath.setAxc a fun c => { c with window := d })
  | .axcRank a => b.onTx (TxPath.setAxc a fun c => { c with rank := d })
  | .axcFlags a => b.onTx (TxPath.setAxc a fun c => { c with inverted := d.getLsbD 0 })
  | .fltAddr f => b.onRx (RxPath.setFilter f fun e => { e with address := d })
  | .fltMask f => b.onRx (RxPath.setFilter f fun e => { e with mask := d })
  | .fltCtl f => b.onRx (RxPath.setFilter f fun e => { e with en := d.getLsbD 0, ext := d.getLsbD 1 })
  | _ => b

/-- WriteRWL(r, d): stored while disabled; while enabled locked, and CFG_LOCKED where the value differs (R137). -/
def Block.writeRwl (r : Reg) (d : Word) (b : Block) : Block :=
  let d' := d &&& r.storedBits
  if b.ctrl.en then b.noteIf (decide (d' ≠ b.image r)) .cfgLocked else b.storeConfig r d'

/-- WriteData(addr, d): the non-reserved bits of an RX register are stored, enabled or not (R140); no other register
is stored here. -/
def Block.writeData (r : Reg) (d : Word) (b : Block) : Block :=
  match r with
  | .rxId => b.onRx fun x => { x with rxId := d }
  | .rxLen => b.onRx fun x => { x with rxLen := d.extractLsb' 0 4 }
  | .rxDataLo => b.onRx fun x => { x with rxDataLo := d }
  | .rxDataHi => b.onRx fun x => { x with rxDataHi := d }
  | _ => b

/-- A write to a register that is neither CMD nor read-only (R132). -/
def Block.writeReg (build : Build) (r : Reg) (d : Word) (b : Block) : Block :=
  match r with
  | .ctrl => b.writeCtrl build d
  | .err => b.clearErrors d
  | _ => if r.access = .rwl then b.writeRwl r d else b.writeData r d

/-- WR(addr, d) (R132). -/
def execWr (addr : Addr) (d : Word) (s : State) : Result :=
  match busCheck .wr s.build addr with
  | none => .next (s.raise .busErr)
  | some .cmd => issueCmd d s
  | some r => .next (s.onBlock (Block.writeReg s.build r d))

end Sys2Proof.Machine
end

