-- ==== Sys2Proof/Machine/Dispatch.lean ====
section
/-! DEFINITION. One arm per instruction, each one direct call of its meaning. -/

namespace Sys2Proof.Machine

def exec (i : Instr) (s : State) : Host.Outcome State Fault Refusal :=
  match i with
  | .rd addr => Sys2Proof.Machine.execRd addr s
  | .wr addr data => Sys2Proof.Machine.execWr addr data s
  | .nop => Sys2Proof.Machine.execNop s
  | .sample arg => Sys2Proof.Machine.execSample arg s
  | .latchBtn => Sys2Proof.Machine.execLatchBtn s
  | .encode => Sys2Proof.Machine.execEncode s
  | .send => Sys2Proof.Machine.execSend s
  | .rxFrame => Sys2Proof.Machine.execRxFrame s
  | .tick => Sys2Proof.Machine.execTick s
  | .softReset => Sys2Proof.Machine.execSoftReset s

end Sys2Proof.Machine
end

