-- ==== Sys2Proof/Machine/Events.lean ====
section
/-! DEFINITION. One input of the environment as one step of the block (60_exceptions.md R312), inputs that arrive in
one clock (R304), and the host program text that makes inputs (30_encoding.md R110 to R112). -/

namespace Sys2Proof.Machine

/-- What one input does: a host access runs the transaction its word encodes; an event has its own rule; a script
line (30_encoding.md R112) arranges the next draw and touches no state of the block. -/
def takeInput (i : Input) (s : State) : Result :=
  match i with
  | .access w =>
    match decodeTransaction w with
    | .ok instr => exec instr s
    | .error _ => .refused .notATransaction
  | .adc a v => adcEvent a v s
  | .msStrobe => strobeEvent s
  | .rst => rstEvent s
  | .pins b => .next { s with port := { s.port with pinsNext := some b } }
  | .txAnswer r => .next { s with port := { s.port with txNext := some r } }

/-- The next step: the oldest input is taken; with none delivered the block waits (10_state.md R32,
70_reset_and_hazards.md R333; assumption log 1). -/
def takeNext (s : State) : Result :=
  match s.port.inputs with
  | [] => .next s
  | i :: rest => takeInput i (s.setInputs rest)

/-- The state in which a bus access that runs the written form `e` is the next input (40_host_bus.md R133). -/
def State.withEncoded (e : Encoded) (s : State) : State := s.withInput (.access (accessWord e))

/-- What arrives in one clock of an implementation (60_exceptions.md R304). -/
structure Clock where
  rst : Bool
  adcX : Option (BitVec 16)
  adcY : Option (BitVec 16)
  access : Option (BitVec 45)
  msStrobe : Bool
deriving DecidableEq, Repr

/-- An adc reading of a clock. -/
def adcInput (a : Axis) : Option (BitVec 16) → List Input
  | none => []
  | some v => [.adc a v]

/-- The inputs of one clock, one at a time (60_exceptions.md R304): rst pre-empts everything else in its clock, a
reading comes before the SAMPLE that opens its channel, an access before the strobe (assumption log 13). -/
def Clock.inputs (c : Clock) : List Input :=
  if c.rst then [.rst]
  else
    adcInput .x c.adcX ++ adcInput .y c.adcY ++ (c.access.map Input.access).toList ++
      (if c.msStrobe then [.msStrobe] else [])

/-- One line of a host program (30_encoding.md R110 to R112). -/
inductive Line where
  /-- `RD reg`. -/
  | rd (addr : Addr)
  /-- `WR reg, value`. -/
  | wr (addr : Addr) (d : Word)
  /-- A command by its mnemonic (R111): `i` is an instruction of format C. -/
  | command (i : Instr)
  /-- `CLEAR_ERR m` (R111). -/
  | clearErr (m : Word)
  /-- `POLL reg, mask, val` (R111) as the RD accesses it took; the loop is the host's. -/
  | poll (addr : Addr) (times : Nat)
  /-- `RXLOAD id, len, lo, hi` (R111). -/
  | rxload (id len lo hi : Word)
  /-- `@ADC X v1 v2 ...` or `@ADC Y v1 v2 ...` (R112). -/
  | adc (a : Axis) (vs : List (BitVec 16))
  /-- `@MS n` (R112). -/
  | ms (n : Nat)
  /-- `@PINS b` (R112). -/
  | pins (b : Byte)
  /-- `@TX OK`, `@TX FAIL` (R112). -/
  | txAnswer (r : TxResult)
  /-- `@RST` (R112). -/
  | rst
deriving DecidableEq, Repr

/-- A POLL ends at the first read of which this holds (30_encoding.md R111). -/
def pollEnds (mask val data : Word) : Bool := decide (data &&& mask = val)

/-- The address of a register by its name (30_encoding.md R110). -/
def Reg.addr (r : Reg) : Addr := BitVec.ofNat 12 r.offset

/-- The instructions a line is written for; an environment line is none (30_encoding.md R111, R112). -/
def Line.instrs : Line → List Instr
  | .rd addr => [.rd addr]
  | .wr addr d => [.wr addr d]
  | .command i => [i]
  | .clearErr m => [.wr Reg.err.addr m]
  | .poll addr times => List.replicate times (.rd addr)
  | .rxload id len lo hi =>
    [.wr Reg.rxId.addr id, .wr Reg.rxLen.addr len, .wr Reg.rxDataLo.addr lo, .wr Reg.rxDataHi.addr hi]
  | .adc _ _ => []
  | .ms _ => []
  | .pins _ => []
  | .txAnswer _ => []
  | .rst => []

/-- The inputs of an environment line (30_encoding.md R112). -/
def Line.events : Line → List Input
  | .adc a vs => vs.map (Input.adc a)
  | .ms n => List.replicate n .msStrobe
  | .pins b => [.pins b]
  | .txAnswer r => [.txAnswer r]
  | .rst => [.rst]
  | _ => []

/-- The inputs a line makes: its bus accesses (30_encoding.md R111), or its events (R112). -/
def Line.inputs (l : Line) : List Input := l.instrs.map (fun i => Input.access (accessWord (encode i))) ++ l.events

/-- The state in which a host program is what the environment delivers next. -/
def State.withProgram (p : List Line) (s : State) : State := s.setInputs (p.flatMap Line.inputs ++ s.port.inputs)

end Sys2Proof.Machine
end

