-- ==== Sys2Proof/Machine/Step.lean ====
section
/-! DEFINITION. One step of the machine, and the state in which a given word is what runs next. -/

namespace Sys2Proof.Machine

/-- One atomic step of the interleaving (20_memory.md R85, 00_scope.md R19). -/
def step (s : State) : Host.Outcome State Fault Refusal := takeNext s

/-- The state whose next step runs the table word `w`: the bus access of a format-B word, or the WR to CMD that
carries a format-C word (assumption log 2, 10, 15). -/
def State.withFetchWord (s : State) (nbits w : Nat) : State := s.withEncoded (encodedOfTable nbits w)

end Sys2Proof.Machine
end

