-- ==== Sys2Proof/Safety.lean ====
section
/-! DEFINITION. What holds of every state a run from reset reaches (the invariant claims use as a premise), and what a
safe step is. -/

namespace Sys2Proof.Machine

/-- No bit of BTN above the build's buttons is set: they are reserved and read 0 (10_state.md R40). -/
abbrev ButtonsInRange (s : State) : Prop := s.block.tx.btn &&& ~~~(buttonMask s.build.nButtons) = 0

/-- While enabled, the configuration in force is one an enable has validated (20_memory.md R88, 40_host_bus.md R135). -/
abbrev EnabledIsValid (s : State) : Prop :=
  s.block.ctrl.en = true → s.block.configValid s.build.windowMax = true

/-- While disabled, both channels are IDLE and no VALID bit is set (40_host_bus.md R138, R139). -/
abbrev DisabledIsQuiet (s : State) : Prop :=
  s.block.ctrl.en = false → s.block.tx.abandon = s.block.tx

/-- ACQ(n, buf): n is in 0..WINDOW-1, every reading is in 0..65536, and the axis's VALID bit is 0 while it acquires
(10_state.md R53, 40_host_bus.md R131). -/
abbrev ChannelOk (t : TxPath) (a : Axis) : Prop :=
  match t.ch.get a with
  | .idle => True
  | .acq buf =>
    buf.length < (t.axc.get a).window.toNat ∧ (∀ r ∈ buf, r.toNat ≤ 65536) ∧ t.valid.get a = false

/-- The visible output of an indicator in a steady state is the boolean its target holds (45_led_fsm.md R265, R266). -/
abbrev LedOk (l : Led) : Prop := ∀ v, l.target.steady = some v → l.phase = v

/-- An unsent frame has the marker bytes 0xFF and 0x1F (43_frame_packer.md R211). -/
abbrev FrameOk (t : TxPath) : Prop :=
  t.frameValid = true → lane 0 t.frameHi = Config.marker4 ∧ lane 3 t.frameHi = Config.marker7

/-- The invariant of the machine. -/
structure State.Inv (s : State) : Prop where
  /-- The build's parameters are within their bounds (00_scope.md R9 to R12). -/
  build : s.build.wf
  /-- The LED state table has N_LEDS entries (10_state.md R51). -/
  leds : s.block.rx.leds.length = s.build.nLeds
  /-- The filter table has N_FILTERS entries (10_state.md R50). -/
  filters : s.block.rx.filters.length = s.build.nFilters
  buttons : ButtonsInRange s
  enabled : EnabledIsValid s
  disabled : DisabledIsQuiet s
  channels : ∀ a, ChannelOk s.block.tx a
  steady : ∀ l ∈ s.block.rx.leds, LedOk l
  frame : FrameOk s.block.tx

/-- Every frame handed to the transport is a joystick frame: identifier, extended addressing and marker bytes
(20_memory.md R75, 43_frame_packer.md R211, R214). -/
abbrev SentOk (s : State) : Prop :=
  ∀ f ∈ s.port.sent, f.id = Config.txId ∧ f.ext = true ∧ f.payload.b4 = Config.marker4 ∧ f.payload.b7 = Config.marker7

/-- An outcome that is no fault. -/
abbrev NoFault (r : Result) : Prop := ∀ f, r ≠ .fault f

/-- A register the build has: its table entry is within N_FILTERS or N_LEDS (10_state.md R50, R51). -/
def Reg.inBuild (b : Build) : Reg → Prop
  | .fltAddr f => f < b.nFilters
  | .fltMask f => f < b.nFilters
  | .fltCtl f => f < b.nFilters
  | .ledState i => i < b.nLeds
  | .ledLt i => i < b.nLeds
  | _ => True

/-- The input that writes a command word to CMD (30_encoding.md R111). -/
def cmdInput (w : Word) : Input := .access (transactionWord true cmdOffset w)

/-- An input that performs ResetState: rst, or the SOFT_RESET command (70_reset_and_hazards.md R331). -/
abbrev IsResetInput (i : Input) : Prop := i = .rst ∨ i = cmdInput 0x000000FF#32

/-- `w` is the one legal command word of `i`'s opcode: any other word with that opcode only raises CMD_ILLEGAL when it
is written to CMD (30_encoding.md R107, R108). -/
abbrev OneLegalWord (i : Instr) (w : Word) : Prop :=
  Sys2Proof.encode i = .command w ∧
    ∀ (v : Word) (s : State), v.toNat % 256 = w.toNat % 256 → v ≠ w →
      exec (.wr cmdOffset v) s = .next { s with block := { s.block with err := s.block.err ||| 0x001#11 } }

/-- The commands of the transmit path (10_state.md R55). -/
def isTransmit : Instr → Bool
  | .sample _ => true
  | .latchBtn => true
  | .encode => true
  | .send => true
  | _ => false

/-- The commands of the receive path (10_state.md R55). -/
def isReceive : Instr → Bool
  | .rxFrame => true
  | .tick => true
  | _ => false

/-- One step after another: what stops the first stops both. -/
def andThen (r : Result) (k : State → Result) : Result :=
  match r with
  | .next t => k t
  | .fault f => .fault f
  | .refused x => .refused x

/-- `n` steps, stopping at the first that gives no next state. -/
def run : Nat → State → Result
  | 0, s => .next s
  | n + 1, s => andThen (step s) (run n)

end Sys2Proof.Machine
end

