-- ==== Sys2Proof/Certificates/Slice0/Obligations.lean ====
section
/-! DEFINITION. The statements for the provers. Each docstring names the rule of spec/ it formalises; the notes in
OBLIGATIONS.json quote it. Where a statement rests on a choice of the model, its docstring names the log entry. -/

open Sys2Proof Sys2Proof.Machine

/-! ## Encoding -/

/-- Decoding an encoded well-formed instruction gives it back, with every operand at every value (30_encoding.md
R102, R103, R105). -/
def Obligations.DecodeOfEncodeIsTheInstruction : Prop :=
  ∀ i : Instr, WellFormed i = true → decode (Sys2Proof.encode i) = .ok i

/-- A word has one meaning: what decodes to an instruction is that instruction's own word, and the instruction is
well-formed (30_encoding.md R105, R106). -/
def Obligations.EncodeOfDecodeIsTheWord : Prop :=
  ∀ (e : Encoded) (i : Instr), decode e = .ok i → Sys2Proof.encode i = e ∧ WellFormed i = true

/-- R107: the words matching (w & 0xFFFF00FF) = 0x00000001 are the SAMPLE words with any ARG, of which only ARG 0 and 1
are legal and the others ILLEGAL; of every other command the one legal word is its opcode, zero-extended. -/
def Obligations.LegalCommandWords : Prop :=
  (∀ w : BitVec 32, w &&& 0xFFFF00FF#32 = 0x00000001#32 ↔ ∃ arg : BitVec 8, w.toNat = 256 * arg.toNat + 1) ∧
    (∀ (w : BitVec 32) (arg : BitVec 8), w.toNat = 256 * arg.toNat + 1 →
      decodeCommand w = if arg.toNat ≤ 1 then .ok (.sample arg) else .error .illegalCommand) ∧
    (∀ w : BitVec 32, decodeCommand w = .ok .nop ↔ w = 0x00#32) ∧
    (∀ w : BitVec 32, decodeCommand w = .ok .latchBtn ↔ w = 0x02#32) ∧
    (∀ w : BitVec 32, decodeCommand w = .ok .encode ↔ w = 0x03#32) ∧
    (∀ w : BitVec 32, decodeCommand w = .ok .send ↔ w = 0x04#32) ∧
    (∀ w : BitVec 32, decodeCommand w = .ok .rxFrame ↔ w = 0x05#32) ∧
    (∀ w : BitVec 32, decodeCommand w = .ok .tick ↔ w = 0x06#32) ∧
    (∀ w : BitVec 32, decodeCommand w = .ok .softReset ↔ w = 0xFF#32)

/-- R108: opcodes 0x07 to 0xFE, any word with RSV != 0 and any word whose ARG is not legal for its opcode are illegal,
no other word is, and writing an illegal word to CMD raises CMD_ILLEGAL and does nothing else, enabled or not. -/
def Obligations.IllegalCommandWordsOnlyRaiseCmdIllegal : Prop :=
  ∀ w : BitVec 32,
    let op := w.toNat % 256
    let arg := w.toNat / 256 % 256
    let illegal := (7 ≤ op ∧ op ≤ 0xFE) ∨ w.toNat / 65536 ≠ 0 ∨ (op = 1 ∧ 1 < arg) ∨ (op ≠ 1 ∧ arg ≠ 0)
    (decodeCommand w = .error .illegalCommand ↔ illegal) ∧
      (illegal → ∀ s : State, exec (.wr 0x00C#12 w) s =
        .next { s with block := { s.block with err := s.block.err ||| 0x001#11 } })

/-- R103: bit 44 is W, bits 43 to 32 are ADDR, bits 31 to 0 are DATA; a word with W = 0 and DATA != 0 encodes no
transaction and is refused, so that it never reaches the block (the refusal of the step is the model's form of that,
log 1, 12). -/
def Obligations.TransactionWordFields : Prop :=
  ∀ w : BitVec 45,
    let addr := BitVec.ofNat 12 (w.toNat / 2 ^ 32)
    let data := BitVec.ofNat 32 w.toNat
    (2 ^ 44 ≤ w.toNat → decodeTransaction w = .ok (.wr addr data)) ∧
      (w.toNat < 2 ^ 44 → w.toNat % 2 ^ 32 = 0 → decodeTransaction w = .ok (.rd addr)) ∧
      (w.toNat < 2 ^ 44 → w.toNat % 2 ^ 32 ≠ 0 → decodeTransaction w = .error .readWithData ∧
        ∀ (s : State) (rest : List Input), s.port.inputs = .access w :: rest → step s = .refused .notATransaction)

/-- Words written out in the spec decode to what they stand for: R111's pseudo-instructions and lines of programs P1
and P2 of 95_test_vectors.md; and one word laid out by R103's fields with W = 0 and DATA = 1, which encodes no transaction,
is rejected. -/
def Obligations.SpecWordsDecode : Prop :=
  decodeTransaction 0x100C00000101#45 = .ok (.wr 0x00C#12 0x00000101#32) ∧
    decodeCommand 0x00000101#32 = .ok (.sample 1#8) ∧
    decodeCommand 0x00000006#32 = .ok .tick ∧
    decodeCommand 0x000000FF#32 = .ok .softReset ∧
    decodeTransaction 0x104002008000#45 = .ok (.wr 0x040#12 0x02008000#32) ∧
    decodeTransaction 0x011400000000#45 = .ok (.rd 0x114#12) ∧
    decodeTransaction 0x011400000001#45 = .error .readWithData

/-! ## Steps -/

/-- When the next input is a host access whose word decodes to an instruction, the step is exec of that instruction at
the state with that input taken off the list (the model's own list, log 1). -/
def Obligations.StepRunsTheDecodedAccess : Prop :=
  ∀ (s : State) (w : BitVec 45) (rest : List Input) (i : Instr),
    s.port.inputs = .access w :: rest → decodeTransaction w = .ok i →
      step s = exec i { s with port := { s.port with inputs := rest } }

/-- The state the host makes with a table word runs exactly the instruction the decoder reads from it: a format-B word
as its own access, a format-C word as the data of a WR to CMD (log 2, 10, 15). -/
def Obligations.FetchedTableWordRuns : Prop :=
  ∀ (s : State) (nbits w : Nat) (i : Instr), decodeTableWord nbits w = some i →
    step (s.withFetchWord nbits w) = exec i s

/-- R133: a write to CMD of a word that decodes to a command is that command; an illegal word raises CMD_ILLEGAL; a
command other than NOP and SOFT_RESET raises CMD_DISABLED while CTRL.EN = 0. -/
def Obligations.CmdWriteIssuesTheCommand : Prop :=
  ∀ (s : State) (w : Word),
    (∀ i, decodeCommand w = .ok i → exec (.wr 0x00C#12 w) s = exec i s) ∧
      (∀ r, decodeCommand w = .error r → exec (.wr 0x00C#12 w) s =
        .next { s with block := { s.block with err := s.block.err ||| 0x001#11 } }) ∧
      (∀ i, decodeCommand w = .ok i → i ≠ .nop → i ≠ .softReset → s.block.ctrl.en = false →
        exec (.wr 0x00C#12 w) s = .next { s with block := { s.block with err := s.block.err ||| 0x002#11 } })

/-- R261: a ms_strobe adds 1 to NOW modulo 2^32, enabled or not, and changes nothing else.
The strobe is the head of the model's input list (log 1). -/
def Obligations.StrobeAdvancesNowOnly : Prop :=
  ∀ (s : State) (rest : List Input), s.port.inputs = .msStrobe :: rest →
    ∃ now : Word, now.toNat = (s.block.now.toNat + 1) % 2 ^ 32 ∧
      step s = .next { s with block := { s.block with now := now }, port := { s.port with inputs := rest } }

/-- R304's same-clock rules, as the model serialises a clock (log 13): a rst pre-empts everything else in its clock; a
read of NOW in the clock of a strobe sees it before the increment; a reading in the clock of the SAMPLE that opens its
channel is not taken. -/
def Obligations.SameClockInputsAreOrdered : Prop :=
  (∀ c : Clock, c.rst = true → c.inputs = [.rst]) ∧
    (∀ s : State, run 2 (s.setInputs
        (Clock.inputs { rst := false, adcX := none, adcY := none, access := some 0x001000000000#45, msStrobe := true })) =
      .next { s with block := { s.block with now := s.block.now + 1 },
                     port := { s.port with inputs := [], reads := s.port.reads ++ [s.block.now] } }) ∧
    (∀ (s : State) (v : BitVec 16), s.block.ctrl.en = true → s.block.tx.ch.x = .idle →
      ∃ t, run 2 (s.setInputs
          (Clock.inputs { rst := false, adcX := some v, adcY := none, access := some 0x100C00000001#45, msStrobe := false })) =
        .next t ∧ t.block.tx.ch.x = .acq [] ∧ t.block.tx.axv = s.block.tx.axv) ∧
    (∀ (s : State) (v : BitVec 16), s.block.ctrl.en = true → s.block.tx.ch.y = .idle →
      ∃ t, run 2 (s.setInputs
          (Clock.inputs { rst := false, adcX := none, adcY := some v, access := some 0x100C00000101#45, msStrobe := false })) =
        .next t ∧ t.block.tx.ch.y = .acq [] ∧ t.block.tx.axv = s.block.tx.axv)

/-! ## The bus -/

/-- R72: the offset and the access code of every register (CTRL is RW here, its fields' locks being R136's); an address
names a register exactly when the build has the register and the address is its offset; every other offset is unmapped,
as are those the rule lists. -/
def Obligations.AddressMap : Prop :=
  (∀ r : Reg, (r.offset, r.access) = match r with
    | .ctrl => (0x000, .rw)
    | .status => (0x004, .ro)
    | .err => (0x008, .w1c)
    | .cmd => (0x00C, .wo)
    | .now => (0x010, .ro)
    | .axv .x => (0x014, .ro)
    | .axv .y => (0x018, .ro)
    | .btn => (0x01C, .ro)
    | .frameLo => (0x020, .ro)
    | .frameHi => (0x024, .ro)
    | .rxId => (0x028, .rw)
    | .rxLen => (0x02C, .rw)
    | .rxDataLo => (0x030, .rw)
    | .rxDataHi => (0x034, .rw)
    | .ledOut => (0x038, .ro)
    | .axcCenterDz .x => (0x040, .rwl)
    | .axcWindow .x => (0x044, .rwl)
    | .axcRank .x => (0x048, .rwl)
    | .axcFlags .x => (0x04C, .rwl)
    | .axcCenterDz .y => (0x050, .rwl)
    | .axcWindow .y => (0x054, .rwl)
    | .axcRank .y => (0x058, .rwl)
    | .axcFlags .y => (0x05C, .rwl)
    | .fltAddr f => (0x080 + 0x10 * f, .rwl)
    | .fltMask f => (0x084 + 0x10 * f, .rwl)
    | .fltCtl f => (0x088 + 0x10 * f, .rwl)
    | .ledState i => (0x100 + 8 * i, .ro)
    | .ledLt i => (0x104 + 8 * i, .ro)) ∧
  ∀ b : Build, b.wf →
    (∀ (addr : Addr) (r : Reg), regAt b addr = some r ↔ r.inBuild b ∧ addr.toNat = r.offset) ∧
      ∀ addr : Addr, (addr.toNat = 0x03C ∨ (0x060 ≤ addr.toNat ∧ addr.toNat ≤ 0x07F) ∨
        (∃ f, f < 8 ∧ addr.toNat = 0x08C + 0x10 * f) ∨ 0x180 ≤ addr.toNat) → regAt b addr = none

/-- R80: an access to a misaligned or unmapped address, and a write to a read-only register, changes nothing but
ERR.BUS_ERR; a refused read returns 0; a read of CMD returns 0 and sets no error. -/
def Obligations.RefusedAccessOnlySetsBusErr : Prop :=
  ∀ (s : State) (addr : Addr),
    (addr.toNat % 4 ≠ 0 ∨ (∀ r : Reg, r.inBuild s.build → r.offset ≠ addr.toNat) →
      exec (.rd addr) s = .next { s with block := { s.block with err := s.block.err ||| 0x100#11 },
                                         port := { s.port with reads := s.port.reads ++ [0] } } ∧
      ∀ d, exec (.wr addr d) s = .next { s with block := { s.block with err := s.block.err ||| 0x100#11 } }) ∧
    (∀ (r : Reg) (d : Word), regAt s.build addr = some r → r.access = .ro →
      exec (.wr addr d) s = .next { s with block := { s.block with err := s.block.err ||| 0x100#11 } }) ∧
    exec (.rd 0x00C#12) s = .next { s with port := { s.port with reads := s.port.reads ++ [0] } }

/-- R81: a read of a mapped register completes, returns the register's current value and changes nothing of the block;
so a second read returns the same. -/
def Obligations.ReadReturnsTheImageAndChangesNothing : Prop :=
  ∀ (s : State) (addr : Addr) (r : Reg), regAt s.build addr = some r →
    ∃ t, exec (.rd addr) s = .next t ∧ t = { s with port := { s.port with reads := s.port.reads ++ [s.block.image r] } } ∧
      exec (.rd addr) t = .next { t with port := { t.port with reads := t.port.reads ++ [s.block.image r] } }

/-- R35: STATUS bit by bit; BUSY_a is 1 exactly when ch[a] is ACQ, and the reserved bits read 0. -/
def Obligations.StatusImageBits : Prop :=
  ∀ (b : Block) (n : Nat), (b.image .status).getLsbD n =
    if n = 0 then decide (b.tx.ch.x ≠ .idle)
    else if n = 1 then decide (b.tx.ch.y ≠ .idle)
    else if n = 2 then b.tx.valid.x
    else if n = 3 then b.tx.valid.y
    else if n = 4 then b.tx.btnValid
    else if n = 5 then b.tx.frameValid
    else if n = 6 then b.rx.rxAccepted
    else false

/-- The register images place their fields at the bits 10_state.md R34, R36, R38 to R44 and R46 to R51 give them, with
reserved bits 0; CMD has no image but 0 (R37). STATUS and LED_OUT have statements of their own. -/
def Obligations.RegisterImagesPlaceTheirFields : Prop :=
  ∀ (b : Block) (a : Axis) (i : Nat),
    (b.image .ctrl).toNat =
      b.ctrl.en.toNat + 2 * b.ctrl.fmt.toNat + 4 * b.ctrl.res.toNat + 16 * b.ctrl.ledInit.toNat ∧
    (b.image .err).toNat = b.err.toNat ∧
    b.image .cmd = 0 ∧
    b.image .now = b.now ∧
    (b.image (.axv a)).toNat = (b.tx.axv.get a).toNat ∧
    (b.image .btn).toNat = b.tx.btn.toNat ∧
    b.image .frameLo = b.tx.frameLo ∧
    b.image .frameHi = b.tx.frameHi ∧
    b.image .rxId = b.rx.rxId ∧
    (b.image .rxLen).toNat = b.rx.rxLen.toNat ∧
    b.image .rxDataLo = b.rx.rxDataLo ∧
    b.image .rxDataHi = b.rx.rxDataHi ∧
    (b.image (.axcCenterDz a)).toNat = (b.tx.axc.get a).center.toNat + 65536 * (b.tx.axc.get a).deadZone.toNat ∧
    b.image (.axcWindow a) = (b.tx.axc.get a).window ∧
    b.image (.axcRank a) = (b.tx.axc.get a).rank ∧
    (b.image (.axcFlags a)).toNat = (b.tx.axc.get a).inverted.toNat ∧
    (∀ f, b.rx.filters[i]? = some f → (b.image (.fltAddr i)) = f.address ∧ (b.image (.fltMask i)) = f.mask ∧
      (b.image (.fltCtl i)).toNat = f.en.toNat + 2 * f.ext.toNat) ∧
    (∀ l, b.rx.leds[i]? = some l → (b.image (.ledLt i)) = l.lastToggle ∧
      (b.image (.ledState i)).toNat = l.target.code.toNat + 16 * l.phase.toNat)

/-- R137: while disabled a write to an RWL register other than CTRL stores its non-reserved bits, and no other register
reads differently after it; while enabled it stores nothing, and sets CFG_LOCKED exactly when the value differs. -/
def Obligations.ConfigurationWrite : Prop :=
  (∀ r : Reg, r.storedBits = match r with
    | .axcFlags _ => 0x00000001#32
    | .fltCtl _ => 0x00000003#32
    | _ => 0xFFFFFFFF#32) ∧
    ∀ (s : State) (addr : Addr) (r : Reg) (d : Word),
      s.block.rx.filters.length = s.build.nFilters → regAt s.build addr = some r → r.access = .rwl →
        (s.block.ctrl.en = false → ∃ t, exec (.wr addr d) s = .next t ∧ t.block.image r = d &&& r.storedBits ∧
          (∀ r', r' ≠ r → t.block.image r' = s.block.image r') ∧ t.block.tx.ch = s.block.tx.ch ∧
          t.build = s.build ∧ t.port = s.port) ∧
        (s.block.ctrl.en = true → exec (.wr addr d) s =
          .next { s with block := { s.block with
            err := s.block.err ||| (if d &&& r.storedBits ≠ s.block.image r then 0x004#11 else 0) } })

/-- R140: a write to an RX register stores the non-reserved bits and does nothing else, enabled or not. -/
def Obligations.DataWritesOnlyStore : Prop :=
  ∀ (s : State) (d : Word),
    exec (.wr 0x028#12 d) s = .next { s with block := { s.block with rx := { s.block.rx with rxId := d } } } ∧
    exec (.wr 0x02C#12 d) s =
      .next { s with block := { s.block with rx := { s.block.rx with rxLen := BitVec.ofNat 4 d.toNat } } } ∧
    exec (.wr 0x030#12 d) s = .next { s with block := { s.block with rx := { s.block.rx with rxDataLo := d } } } ∧
    exec (.wr 0x034#12 d) s = .next { s with block := { s.block with rx := { s.block.rx with rxDataHi := d } } }

/-- R134: a write to ERR clears exactly the bits [10:0] written as 1, sets none, and does nothing else. -/
def Obligations.ErrWriteClearsTheBitsWritten : Prop :=
  ∀ (s : State) (d : Word), ∃ err : BitVec 11,
    (∀ n, n < 11 → err.getLsbD n = (s.block.err.getLsbD n && !d.getLsbD n)) ∧
      exec (.wr 0x008#12 d) s = .next { s with block := { s.block with err := err } }

/-- R136 and R139, CTRL written while enabled: FMT, RES and LED_INIT keep their values and a difference sets
CFG_LOCKED; with EN = 0 the block is disabled: both channels IDLE, the four VALID bits 0, everything else kept. -/
def Obligations.CtrlWriteWhileEnabled : Prop :=
  ∀ (s : State) (d : Word), s.block.ctrl.en = true →
    let err := s.block.err |||
      (if d.getLsbD 1 ≠ s.block.ctrl.fmt ∨ d.extractLsb' 2 2 ≠ s.block.ctrl.res ∨ d.getLsbD 4 ≠ s.block.ctrl.ledInit
        then 0x004#11 else 0)
    (d.getLsbD 0 = true → exec (.wr 0x000#12 d) s = .next { s with block := { s.block with err := err } }) ∧
      (d.getLsbD 0 = false → exec (.wr 0x000#12 d) s = .next { s with block := { s.block with
        err := err
        ctrl := { s.block.ctrl with en := false }
        tx := { s.block.tx with ch := { x := .idle, y := .idle }, valid := { x := false, y := false },
                                btnValid := false, frameValid := false } } })

/-- R135, R136 and R138, CTRL written while disabled: the configuration fields are written first; with EN = 1 a valid
configuration enables the block and starts every indicator as Steady(LED_INIT) with LT = NOW, and an invalid one raises
CFG_INVALID with EN still 0. -/
def Obligations.CtrlWriteWhileDisabled : Prop :=
  ∀ (s : State) (d : Word), s.block.ctrl.en = false →
    let fields : Ctrl := { en := false, fmt := d.getLsbD 1, res := d.extractLsb' 2 2, ledInit := d.getLsbD 4 }
    let led : Led := { target := if d.getLsbD 4 then .on else .off, phase := d.getLsbD 4, lastToggle := s.block.now }
    let valid := (∀ a : Axis, 1 ≤ (s.block.tx.axc.get a).window.toNat ∧
        (s.block.tx.axc.get a).window.toNat ≤ s.build.windowMax ∧
        (s.block.tx.axc.get a).rank.toNat < (s.block.tx.axc.get a).window.toNat) ∧ d.extractLsb' 2 2 ≠ 3#2
    (d.getLsbD 0 = false → exec (.wr 0x000#12 d) s = .next { s with block := { s.block with ctrl := fields } }) ∧
      (d.getLsbD 0 = true → valid → exec (.wr 0x000#12 d) s = .next { s with block := { s.block with
        ctrl := { fields with en := true }
        rx := { s.block.rx with leds := List.replicate s.build.nLeds led } } }) ∧
      (d.getLsbD 0 = true → ¬ valid → exec (.wr 0x000#12 d) s =
        .next { s with block := { s.block with ctrl := fields, err := s.block.err ||| 0x008#11 } })

/-! ## The axis sampler -/

/-- R161: SAMPLE a on an idle channel clears VALID_a and opens an empty acquisition, keeping AXV_a; on an acquiring
channel it raises OVERRUN and the acquisition continues untouched; ARG above 1 is CMD_ILLEGAL, enabled or not; while
disabled a legal SAMPLE is CMD_DISABLED. -/
def Obligations.SampleStartsAnAcquisition : Prop :=
  Sys2Proof.encode (.sample 0) = .command 0x00000001#32 ∧ Sys2Proof.encode (.sample 1) = .command 0x00000101#32 ∧
  ∀ (s : State) (arg : BitVec 8),
    (1 < arg.toNat → exec (.sample arg) s =
      .next { s with block := { s.block with err := s.block.err ||| 0x001#11 } }) ∧
    ∀ a : Axis, arg.toNat = a.index →
      (s.block.ctrl.en = false → exec (.sample arg) s =
        .next { s with block := { s.block with err := s.block.err ||| 0x002#11 } }) ∧
      (s.block.ctrl.en = true → s.block.tx.ch.get a = .idle → exec (.sample arg) s =
        .next { s with block := { s.block with tx := { s.block.tx with
          valid := s.block.tx.valid.set a false, ch := s.block.tx.ch.set a (.acq []) } } }) ∧
      (s.block.ctrl.en = true → s.block.tx.ch.get a ≠ .idle → exec (.sample arg) s =
        .next { s with block := { s.block with err := s.block.err ||| 0x010#11 } })

/-- R162, R163 and R168, one adc[a] reading: an idle channel takes nothing; an acquiring one stores the transformed
reading; the W-th reading writes AXV_a, sets VALID_a and ends the acquisition. Nothing else changes. The reading is the
head of the model's input list (log 1). -/
def Obligations.AdcReadingIsStoredOrCompletes : Prop :=
  ∀ (s : State) (a : Axis) (v : BitVec 16) (rest : List Input), s.port.inputs = .adc a v :: rest →
    ∃ x : Reading, x.toNat = (if (s.block.tx.axc.get a).inverted then 65536 - v.toNat else v.toNat) ∧
      (s.block.tx.ch.get a = .idle → step s = .next { s with port := { s.port with inputs := rest } }) ∧
      ∀ buf, s.block.tx.ch.get a = .acq buf →
        (buf.length + 1 ≠ (s.block.tx.axc.get a).window.toNat → step s =
          .next { s with block := { s.block with tx := { s.block.tx with ch := s.block.tx.ch.set a (.acq (buf ++ [x])) } },
                         port := { s.port with inputs := rest } }) ∧
        (buf.length + 1 = (s.block.tx.axc.get a).window.toNat →
          (s.block.tx.axc.get a).rank.toNat < (s.block.tx.axc.get a).window.toNat →
            ∃ value, resolve (s.block.tx.axc.get a) (buf ++ [x]) = some value ∧ step s =
              .next { s with block := { s.block with tx := { s.block.tx with
                                axv := s.block.tx.axv.set a value, valid := s.block.tx.valid.set a true,
                                ch := s.block.tx.ch.set a .idle } },
                             port := { s.port with inputs := rest } })

/-- One SAMPLE and the axis's next W readings are W + 1 steps, the last of which completes the acquisition with the value
the W transformed readings resolve to (70_reset_and_hazards.md R357, 41_axis_sampler.md R163, R168; the model's input
list, log 1). -/
def Obligations.SampleAndWindowOfReadingsCompletes : Prop :=
  ∀ (s : State) (a : Axis) (w : BitVec 45) (vs : List (BitVec 16)) (rest : List Input),
    s.block.ctrl.en = true → s.block.tx.ch.get a = .idle →
    (s.block.tx.axc.get a).rank.toNat < (s.block.tx.axc.get a).window.toNat →
    vs.length = (s.block.tx.axc.get a).window.toNat →
    w = (match a with | .x => 0x100C00000001#45 | .y => 0x100C00000101#45) →
    s.port.inputs = .access w :: (vs.map (Input.adc a) ++ rest) →
      ∃ value, resolve (s.block.tx.axc.get a) (vs.map (transform (s.block.tx.axc.get a).inverted)) = some value ∧
        run (vs.length + 1) s = .next { s with
          block := { s.block with tx := { s.block.tx with
            axv := s.block.tx.axv.set a value, valid := s.block.tx.valid.set a true } }
          port := { s.port with inputs := rest } }

/-- R164: selection takes the element at index K, from 0, of the readings in non-decreasing order, with multiplicity: a
reading of the buffer with at most K readings below it and more than K not above it, whatever the order the readings
came in; there is one exactly when K is below the number of readings. -/
def Obligations.SelectionIsTheOrderStatistic : Prop :=
  ∀ (rank : Word) (buf : List Reading),
    (rank.toNat < buf.length ↔ ∃ sel, select rank buf = some sel) ∧
      ∀ sel, select rank buf = some sel → sel ∈ buf ∧
        buf.countP (fun r => decide (r.toNat < sel.toNat)) ≤ rank.toNat ∧
        rank.toNat < buf.countP (fun r => decide (r.toNat ≤ sel.toNat)) ∧
        ∀ buf' : List Reading, buf.Perm buf' → select rank buf' = some sel

/-- R170: selecting rank K of the inverted readings equals inverting the reading of rank W-1-K of the raw readings. -/
def Obligations.InversionMirrorsTheRank : Prop :=
  ∀ (raws : List (BitVec 16)) (k : Nat), k < raws.length →
    ∃ a b, (sortAsc (raws.map (transform true)))[k]? = some a ∧
      (sortAsc (raws.map (transform false)))[raws.length - 1 - k]? = some b ∧ a.toNat = 65536 - b.toNat

/-- R165 and R166: a selected value nearer to the center than the dead zone gives the center; any other passes
unchanged but for saturation, which changes 65536 alone, to 65535. -/
def Obligations.DeadZoneAndSaturation : Prop :=
  ∀ (cfg : AxisConfig) (buf : List Reading) (sel : Reading), select cfg.rank buf = some sel → sel.toNat ≤ 65536 →
    ∃ value, resolve cfg buf = some value ∧
      (sel.toNat < cfg.center.toNat + cfg.deadZone.toNat ∧ cfg.center.toNat < sel.toNat + cfg.deadZone.toNat →
        value = cfg.center) ∧
      (¬ (sel.toNat < cfg.center.toNat + cfg.deadZone.toNat ∧ cfg.center.toNat < sel.toNat + cfg.deadZone.toNat) →
        value.toNat = if sel.toNat = 65536 then 65535 else sel.toNat)

/-- The two channels are independent: a reading on X and a reading on Y give the same outcome in either order
(41_axis_sampler.md R172). -/
def Obligations.ReadingsOfTheTwoAxesCommute : Prop :=
  ∀ (s : State) (v w : BitVec 16) (rest : List Input),
    run 2 (s.setInputs (.adc .x v :: .adc .y w :: rest)) = run 2 (s.setInputs (.adc .y w :: .adc .x v :: rest))

/-- R343: an acquisition that receives no readings never completes: only a disable, SOFT_RESET or rst (after all of which
EN = 0) ends it, SAMPLE a raises OVERRUN while it lasts, and ENCODE raises NOT_VALID. Steps take the model's input
list (log 1). -/
def Obligations.StuckAcquisitionPersists : Prop :=
  ∀ (s t : State) (a : Axis), s.Inv → s.block.tx.ch.get a ≠ .idle →
    (step s = .next t → (∀ v rest, s.port.inputs ≠ .adc a v :: rest) → t.block.ctrl.en = true →
      t.block.tx.ch.get a = s.block.tx.ch.get a) ∧
    exec (.sample (BitVec.ofNat 8 a.index)) s =
      .next { s with block := { s.block with err := s.block.err ||| 0x010#11 } } ∧
    exec .encode s = .next { s with block := { s.block with err := s.block.err ||| 0x020#11 } }

/-! ## The button bank -/

/-- R191: LATCH_BTN samples the pins once, BTN[i] is the negation of raw level i for each of the build's buttons, the
other bits of BTN are 0, BTN_VALID is set. Nothing else of the block changes; while disabled only CMD_DISABLED is
raised. The model's own choice (log 3): levels a program line scripted (30_encoding.md R112) are the ones sampled, and
are then used up. -/
def Obligations.LatchBtnSamplesActiveLowPins : Prop :=
  OneLegalWord .latchBtn 0x00000002#32 ∧ ∀ s : State,
    (s.block.ctrl.en = true → ∃ (raw btn : BitVec 8) (t : State),
      (∀ b, s.port.pinsNext = some b → raw = b) ∧
      (∀ i, i < 8 → btn.getLsbD i = (decide (i < s.build.nButtons) && !raw.getLsbD i)) ∧
      exec .latchBtn s = .next t ∧
      t.block = { s.block with tx := { s.block.tx with btn := btn, btnValid := true } } ∧
      t.build = s.build ∧ t.port.inputs = s.port.inputs ∧ t.port.pinsNext = none ∧ t.port.txNext = s.port.txNext ∧
      t.port.reads = s.port.reads ∧ t.port.sent = s.port.sent) ∧
    (s.block.ctrl.en = false → exec .latchBtn s =
      .next { s with block := { s.block with err := s.block.err ||| 0x002#11 } })

/-! ## The frame packer -/

/-- R205: n of the rescale is the integer nearest to v / 2^S; of a value halfway between two integers it is the upper one
under HALF_UP and the even one under HALF_EVEN; the scaled value lies in [-2^res, 2^res]. -/
def Obligations.RescaleRoundsToNearest : Prop :=
  ∀ (ties : RoundTies) (res : Resolution) (v : BitVec 16),
    ∃ n : Nat, rescale ties res v = (n : Int) - 2 ^ res.bits ∧
      -(2 ^ res.bits : Int) ≤ rescale ties res v ∧ rescale ties res v ≤ 2 ^ res.bits ∧
      2 * (n * 2 ^ (15 - res.bits)) ≤ 2 * v.toNat + 2 ^ (15 - res.bits) ∧
      2 * v.toNat ≤ 2 * (n * 2 ^ (15 - res.bits)) + 2 ^ (15 - res.bits) ∧
      (2 * (v.toNat % 2 ^ (15 - res.bits)) = 2 ^ (15 - res.bits) →
        (ties = .halfUp → v.toNat < n * 2 ^ (15 - res.bits)) ∧ (ties = .halfEven → n % 2 = 0))

/-- R206, R207: the clamp applies exactly when v >= 65536 - 2^(S-1), which is when n = 2^(res+1), under both tie rules,
and gives 2^res - 1; it changes no other value; the 17-bit value 65536 would give 2^res - 1 too. -/
def Obligations.ClampThreshold : Prop :=
  ∀ (ties : RoundTies) (res : Resolution) (v : BitVec 16),
    (isClamped res (rescale ties res v) = true ↔ 65536 - 2 ^ (14 - res.bits) ≤ v.toNat) ∧
      (isClamped res (rescale ties res v) = true ↔ roundShift ties res.shift v.toNat = 2 ^ (res.bits + 1)) ∧
      clamp res ((roundShift ties res.shift 65536 : Int) - 2 ^ res.bits) = 2 ^ res.bits - 1 ∧
      (isClamped res (rescale ties res v) = true → clamp res (rescale ties res v) = 2 ^ res.bits - 1) ∧
      (isClamped res (rescale ties res v) = false → clamp res (rescale ties res v) = rescale ties res v)

/-- R215: the bit layout of byte 0 (X) and byte 2 (Y): m[9], m[8], 0, the sign, m[11], m[10], and the base. -/
def Obligations.AxisByteLayout : Prop :=
  ∀ (res : Resolution) (axis : Axis) (s : Int), -(2 ^ res.bits : Int) ≤ s → s ≤ 2 ^ res.bits - 1 →
    let b := axisByte res axis s
    let m := s.natAbs
    b.getLsbD 7 = m.testBit 9 ∧ b.getLsbD 6 = m.testBit 8 ∧ b.getLsbD 5 = false ∧ b.getLsbD 4 = decide (s < 0) ∧
      b.getLsbD 3 = m.testBit 11 ∧ b.getLsbD 2 = m.testBit 10 ∧
      b.toNat % 4 = (if res = .bits12 ∨ (res = .bits10 ∧ axis = .x) then 3 else 0) ∧
      (magLo s).toNat = m % 256 ∧
      (res = .bits8 → b.getLsbD 7 = false ∧ b.getLsbD 3 = false ∧ b.getLsbD 2 = false ∧ (b.getLsbD 6 = true ↔ m = 256)) ∧
      (res = .bits10 → b.getLsbD 3 = false ∧ (b.getLsbD 2 = true ↔ m = 1024))

/-- R216: the round trip through the reference decoder, for every scaled value of each resolution and both axes; a set
sign with magnitude bits all 0 arises only from -4096 at res 12. -/
def Obligations.AxisRoundTrip : Prop :=
  ∀ (res : Resolution) (axis : Axis) (s : Int), -(2 ^ res.bits : Int) ≤ s → s ≤ 2 ^ res.bits - 1 →
    decodeAxis res (axisByte res axis s) (magLo s) = s ∧
      ((axisByte res axis s).getLsbD 4 = true → axisByte res axis s &&& 0xCC#8 = 0 → magLo s = 0 → res = .bits12 ∧ s = -4096)

/-- R212, with R210 and R211: bytes 0 and 1 of the payload carry the clamped rescaled X, bytes 2 and 3 the clamped
rescaled Y; the markers are bytes 4 and 7; bytes 5 and 6 hold the button bits and no other; the second result tells
whether an axis was clamped. -/
def Obligations.ButtonBytesAndMarkers : Prop :=
  ∀ (ties : RoundTies) (res : Resolution) (x y : BitVec 16) (btn : BitVec 8),
    let p := encodePayload ties res x y btn
    let sx := min (rescale ties res x) (2 ^ res.bits - 1)
    let sy := min (rescale ties res y) (2 ^ res.bits - 1)
    p.b0 = axisByte res .x sx ∧ p.b1.toNat = sx.natAbs % 256 ∧
      p.b2 = axisByte res .y sy ∧ p.b3.toNat = sy.natAbs % 256 ∧
      p.b4 = 0xFF#8 ∧ p.b7 = 0x1F#8 ∧
      p.b5.toNat = 0x40 * (btn.getLsbD 0).toNat + 0x10 * (btn.getLsbD 1).toNat + 0x04 * (btn.getLsbD 2).toNat +
        (btn.getLsbD 3).toNat ∧
      p.b6.toNat = 0x04 * (btn.getLsbD 4).toNat + 0x40 * (btn.getLsbD 5).toNat ∧
      (encodeClamped ties res x y = true ↔
        (2 ^ res.bits - 1 : Int) < rescale ties res x ∨ (2 ^ res.bits - 1 : Int) < rescale ties res y)

/-- R201: ENCODE on fresh inputs writes the payload of Encode to the frame registers, sets FRAME_VALID, consumes the
three inputs and notes CLAMPED when an axis was clamped; with an input that is not fresh it raises NOT_VALID, and while
disabled CMD_DISABLED, with no other effect. -/
def Obligations.EncodePacksTheFrame : Prop :=
  OneLegalWord .encode 0x00000003#32 ∧ ∀ s : State,
    (∀ res : Resolution, s.block.ctrl.en = true → s.block.tx.valid.x = true → s.block.tx.valid.y = true →
      s.block.tx.btnValid = true → res.bits = 8 + 2 * s.block.ctrl.res.toNat →
      let p := encodePayload s.build.roundTies res s.block.tx.axv.x s.block.tx.axv.y s.block.tx.btn
      let clamped := isClamped res (rescale s.build.roundTies res s.block.tx.axv.x) ||
        isClamped res (rescale s.build.roundTies res s.block.tx.axv.y)
      ∃ lo hi : Word,
        lo.toNat = p.b0.toNat + 2 ^ 8 * p.b1.toNat + 2 ^ 16 * p.b2.toNat + 2 ^ 24 * p.b3.toNat ∧
        hi.toNat = p.b4.toNat + 2 ^ 8 * p.b5.toNat + 2 ^ 16 * p.b6.toNat + 2 ^ 24 * p.b7.toNat ∧
        exec .encode s = .next { s with block := { s.block with
          err := s.block.err ||| (if clamped then 0x200#11 else 0)
          tx := { s.block.tx with frameLo := lo, frameHi := hi, frameValid := true,
                                  valid := { x := false, y := false }, btnValid := false } } }) ∧
    (s.block.ctrl.en = true →
      (s.block.tx.valid.x = false ∨ s.block.tx.valid.y = false ∨ s.block.tx.btnValid = false) →
      exec .encode s = .next { s with block := { s.block with err := s.block.err ||| 0x020#11 } }) ∧
    (s.block.ctrl.en = false →
      exec .encode s = .next { s with block := { s.block with err := s.block.err ||| 0x002#11 } })

/-- R213: SEND hands (0x18FDD6F1, extended, the eight bytes of FRAME_LO and FRAME_HI) to the transport and spends the
frame whatever the answer, TX_FAIL telling a FAIL. Without an unsent frame it raises NOT_VALID and emits nothing; while
disabled it raises CMD_DISABLED and emits nothing. The model's own choice (log 3): an answer a program line scripted
(30_encoding.md R112) is the one taken, and is then used up. -/
def Obligations.SendHandsTheFrameToTheTransport : Prop :=
  OneLegalWord .send 0x00000004#32 ∧ ∀ s : State,
    (s.block.ctrl.en = true → s.block.tx.frameValid = true → ∃ (r : TxResult) (p : Payload) (t : State),
      (∀ r', s.port.txNext = some r' → r = r') ∧
      s.block.tx.frameLo.toNat = p.b0.toNat + 2 ^ 8 * p.b1.toNat + 2 ^ 16 * p.b2.toNat + 2 ^ 24 * p.b3.toNat ∧
      s.block.tx.frameHi.toNat = p.b4.toNat + 2 ^ 8 * p.b5.toNat + 2 ^ 16 * p.b6.toNat + 2 ^ 24 * p.b7.toNat ∧
      exec .send s = .next t ∧
      t.port.sent = s.port.sent ++ [{ id := 0x18FDD6F1#32, ext := true, payload := p }] ∧
      t.block = { s.block with err := s.block.err ||| (if r = .fail then 0x040#11 else 0),
                               tx := { s.block.tx with frameValid := false } } ∧
      t.build = s.build ∧ t.port.inputs = s.port.inputs ∧ t.port.pinsNext = s.port.pinsNext ∧ t.port.txNext = none ∧
      t.port.reads = s.port.reads) ∧
    (s.block.ctrl.en = true → s.block.tx.frameValid = false →
      exec .send s = .next { s with block := { s.block with err := s.block.err ||| 0x020#11 } }) ∧
    (s.block.ctrl.en = false →
      exec .send s = .next { s with block := { s.block with err := s.block.err ||| 0x002#11 } })

/-! ## Inbound status frames -/

/-- R231 and R232: RX_FRAME with LEN above 8 raises RX_LEN alone; a frame no enabled entry of the filter table matches
clears RX_ACCEPTED and changes nothing else; while disabled only CMD_DISABLED is raised. -/
def Obligations.RejectedFramesChangeNoIndicator : Prop :=
  ∀ s : State,
    (s.block.ctrl.en = false →
      exec .rxFrame s = .next { s with block := { s.block with err := s.block.err ||| 0x002#11 } }) ∧
    (s.block.ctrl.en = true → 8 < s.block.rx.rxLen.toNat →
      exec .rxFrame s = .next { s with block := { s.block with err := s.block.err ||| 0x080#11 } }) ∧
    (s.block.ctrl.en = true → s.block.rx.rxLen.toNat ≤ 8 →
      (∀ f ∈ s.block.rx.filters, f.en = true → s.block.rx.rxId &&& f.mask ≠ f.address &&& f.mask) →
      exec .rxFrame s = .next { s with block := { s.block with rx := { s.block.rx with rxAccepted := false } } })

/-- R236: the 4-bit status codes, the fallback rule kept exactly: On is 0 and Off is 1, and a code above 4 is
Fallback(code mod 2 = 0); with the TARGET value of each. -/
def Obligations.StatusCodes : Prop :=
  codeToTarget 0 = .on ∧ codeToTarget 1 = .off ∧ codeToTarget 2 = .slowBlink ∧ codeToTarget 3 = .medBlink ∧
    codeToTarget 4 = .fastBlink ∧
    (∀ c : BitVec 4, 4 < c.toNat → codeToTarget c = .fallback (decide (c.toNat % 2 = 0))) ∧
    ∀ c : BitVec 4, (codeToTarget c).code.toNat =
      if c.toNat = 0 then 1 else if c.toNat = 1 then 0 else if c.toNat ≤ 4 then c.toNat
      else if c.toNat % 2 = 0 then 6 else 5

/-- R238 (with R231, R232): an accepted batch frame sets RX_ACCEPTED, applies to indicator i < 9 the code of its nibble
of byte i div 2 (the high one for even i) where that byte is present, leaves every other indicator, and notes FALLBACK
exactly when a decoded code is above 4. -/
def Obligations.BatchFrameAppliesItsCodes : Prop :=
  ∀ (s : State) (f : CanFilter), s.block.ctrl.en = true → s.block.ctrl.fmt = false → s.block.rx.rxLen.toNat ≤ 8 →
    f ∈ s.block.rx.filters → f.en = true → s.block.rx.rxId &&& f.mask = f.address &&& f.mask →
    s.block.rx.leds.length = s.build.nLeds →
    let data := s.block.rx.rxDataLo.toNat + 2 ^ 32 * s.block.rx.rxDataHi.toNat
    let code := fun i : Nat => BitVec.ofNat 4 (data / 2 ^ (8 * (i / 2) + if i % 2 = 0 then 4 else 0))
    ∃ (leds : List Led) (note : Bool),
      (note = true ↔ ∃ i, i < 9 ∧ i < s.build.nLeds ∧ i / 2 < s.block.rx.rxLen.toNat ∧ 4 < (code i).toNat) ∧
      (leds.length = s.block.rx.leds.length ∧ ∀ (i : Nat) (l : Led), s.block.rx.leds[i]? = some l → leds[i]? = some
        (if i < 9 ∧ i / 2 < s.block.rx.rxLen.toNat then applyTarget s.block.now (codeToTarget (code i)) l else l)) ∧
      exec .rxFrame s = .next { s with block := { s.block with
        err := s.block.err ||| (if note then 0x400#11 else 0)
        rx := { s.block.rx with rxAccepted := true, leds := leds } } }

/-- R239 (with R231, R232): an accepted single-update frame sets RX_ACCEPTED and, with at least two bytes and k in
1..N_LEDS, gives indicator k - 1 On where the high nibble of byte 1 is 0 and Off where it is not; every other indicator
is unchanged and no error or information bit is set. -/
def Obligations.SingleUpdateFrameAppliesOneTarget : Prop :=
  ∀ (s : State) (f : CanFilter), s.block.ctrl.en = true → s.block.ctrl.fmt = true → s.block.rx.rxLen.toNat ≤ 8 →
    f ∈ s.block.rx.filters → f.en = true → s.block.rx.rxId &&& f.mask = f.address &&& f.mask →
    let k := s.block.rx.rxDataLo.toNat % 256
    let c := s.block.rx.rxDataLo.toNat / 2 ^ 12 % 16
    ∃ leds : List Led,
      (leds.length = s.block.rx.leds.length ∧ ∀ (i : Nat) (l : Led), s.block.rx.leds[i]? = some l → leds[i]? = some
        (if 2 ≤ s.block.rx.rxLen.toNat ∧ 1 ≤ k ∧ k ≤ s.build.nLeds ∧ i + 1 = k
          then applyTarget s.block.now (if c = 0 then .on else .off) l else l)) ∧
      exec .rxFrame s = .next { s with block := { s.block with
        rx := { s.block.rx with rxAccepted := true, leds := leds } } }

/-- A frame received twice in a row changes nothing the second time (44_status_rx.md R231, 45_led_fsm.md R264), whatever
its length, its filters and the enable. -/
def Obligations.RepeatedFrameChangesNothing : Prop :=
  ∀ s t : State, exec .rxFrame s = .next t → exec .rxFrame t = .next t

/-! ## The indicators -/

/-- R264: a target equal to the current one changes nothing; Off, On and Fallback(v) set the output at once and keep
LAST_TOGGLE; a blink target keeps the output and restarts the timer at NOW. -/
def Obligations.ApplyTargetTransition : Prop :=
  ∀ (now : Word) (l : Led),
    applyTarget now l.target l = l ∧
      (∀ t, t ≠ l.target → applyTarget now t l = match t with
        | .off => { l with target := .off, phase := false }
        | .on => { l with target := .on, phase := true }
        | .fallback v => { l with target := .fallback v, phase := v }
        | .slowBlink => { l with target := .slowBlink, lastToggle := now }
        | .medBlink => { l with target := .medBlink, lastToggle := now }
        | .fastBlink => { l with target := .fastBlink, lastToggle := now })

/-- R268: TICK flips each blinking indicator whose elapsed time modulo 2^32 is at least its period (1000, 500 or 100 ms)
and sets its LAST_TOGGLE to NOW, touches no other indicator and nothing else; while disabled it raises CMD_DISABLED. -/
def Obligations.TickFlipsTheDueIndicators : Prop :=
  OneLegalWord .tick 0x00000006#32 ∧ ∀ s : State,
    (s.block.ctrl.en = true → ∃ leds : List Led,
      (leds.length = s.block.rx.leds.length ∧ ∀ (i : Nat) (l : Led), s.block.rx.leds[i]? = some l →
        let elapsed := (s.block.now.toNat + 2 ^ 32 - l.lastToggle.toNat) % 2 ^ 32
        leds[i]? = some (if (l.target = .slowBlink ∧ 1000 ≤ elapsed) ∨ (l.target = .medBlink ∧ 500 ≤ elapsed) ∨
            (l.target = .fastBlink ∧ 100 ≤ elapsed)
          then { l with phase := !l.phase, lastToggle := s.block.now } else l)) ∧
      exec .tick s = .next { s with block := { s.block with rx := { s.block.rx with leds := leds } } }) ∧
    (s.block.ctrl.en = false →
      exec .tick s = .next { s with block := { s.block with err := s.block.err ||| 0x002#11 } })

/-- A second TICK at the same NOW changes nothing: missed periods are not caught up (45_led_fsm.md R269). -/
def Obligations.SecondTickAtTheSameNowChangesNothing : Prop :=
  ∀ s t : State, exec .tick s = .next t → exec .tick t = .next t

/-- R45 and R51: bit i of LED_OUT is indicator i's PHASE, which is bit 4 of LED_STATE[i]; the bits above are 0. -/
def Obligations.LedOutIsThePhases : Prop :=
  ∀ s : State, s.block.rx.leds.length = s.build.nLeds → s.build.nLeds ≤ 16 → ∀ i,
    (∀ l : Led, s.block.rx.leds[i]? = some l → (s.block.image .ledOut).getLsbD i = l.phase ∧
      (s.block.image (.ledState i)).getLsbD 4 = l.phase) ∧
      (s.build.nLeds ≤ i → (s.block.image .ledOut).getLsbD i = false)

/-- R74: a step makes an indicator.set call for an indicator exactly when it changes the indicator's bit of LED_OUT, with
the new level. -/
def Obligations.IndicatorCallsAreTheChangedOutputs : Prop :=
  ∀ s t : State, step s = .next t → ∀ (i : Nat) (v : Bool),
    (i, v) ∈ indicatorCalls s t ↔ i < s.build.nLeds ∧
      (s.block.image .ledOut).getLsbD i ≠ v ∧ (t.block.image .ledOut).getLsbD i = v

/-! ## System commands and reset -/

/-- R291: NOP, of word 0, completes in every state, enabled or not, and changes nothing, by itself and written to CMD. -/
def Obligations.NopHasNoEffect : Prop :=
  OneLegalWord .nop 0x00000000#32 ∧ ∀ s : State, exec .nop s = .next s ∧ exec (.wr 0x00C#12 0) s = .next s

/-- R331 and R332, R292: SOFT_RESET and rst put every piece of the block's state to its reset value, whatever the state
and whether enabled or not, and emit nothing; rst is the head of the model's input list (log 1). -/
def Obligations.ResetPutsEveryPieceToItsValue : Prop :=
  ∀ s : State,
    let axc : AxisConfig := { center := 0, deadZone := 0, window := 0, rank := 0, inverted := false }
    let block : Block :=
      { ctrl := { en := false, fmt := false, res := 0, ledInit := false }, err := 0, now := 0
        tx := { axc := { x := axc, y := axc }, axv := { x := 0, y := 0 }, valid := { x := false, y := false }
                ch := { x := .idle, y := .idle }, btn := 0, btnValid := false, frameLo := 0, frameHi := 0, frameValid := false }
        rx := { filters := List.replicate s.build.nFilters { address := 0, mask := 0, en := false, ext := false }
                rxId := 0, rxLen := 0, rxDataLo := 0, rxDataHi := 0, rxAccepted := false
                leds := List.replicate s.build.nLeds { target := .off, phase := false, lastToggle := 0 } } }
    exec .softReset s = .next { s with block := block } ∧
      (∀ rest, s.port.inputs = .rst :: rest →
        step s = .next { s with block := block, port := { s.port with inputs := rest } }) ∧
      State.reset.block = { block with
        rx := { block.rx with filters := List.replicate 4 { address := 0, mask := 0, en := false, ext := false }
                              leds := List.replicate 9 { target := .off, phase := false, lastToggle := 0 } } }

/-! ## Whole-machine rules -/

/-- The invariant holds right after reset, of every build within its bounds. -/
def Obligations.ResetHasTheInvariant : Prop := State.reset.Inv ∧ ∀ b : Build, b.wf → (State.resetOf b).Inv

/-- Every step keeps the invariant: the build and table sizes; no BTN bit beyond the build's buttons; a validated
configuration while enabled; idle channels and no VALID bit while disabled; an acquisition below its window with readings
in range and VALID 0; steady outputs equal to their target's boolean; marker bytes in an unsent frame. -/
def Obligations.EveryStepKeepsTheInvariant : Prop := ∀ s t : State, s.Inv → step s = .next t → t.Inv

/-- From a state of the invariant no step faults: every outcome of the block is defined (93_implementation_defined.md),
and a step is refused only where the next input is a word that encodes no transaction (I14). -/
def Obligations.NoStepFaults : Prop :=
  ∀ s : State, s.Inv → NoFault (step s) ∧
    ∀ r, step s = .refused r → ∃ w rest, s.port.inputs = .access w :: rest ∧ decodeTransaction w = .error .readWithData

/-- Configuration cannot change while CTRL.EN = 1: a step from enabled to enabled leaves CTRL, the axis configuration and
the filter table as they were (20_memory.md R88). -/
def Obligations.ConfigurationIsLockedWhileEnabled : Prop :=
  ∀ s t : State, step s = .next t → s.block.ctrl.en = true → t.block.ctrl.en = true →
    t.block.ctrl = s.block.ctrl ∧ t.block.tx.axc = s.block.tx.axc ∧ t.block.rx.filters = s.block.rx.filters

/-- R55: the two paths' state is disjoint. A transmit command leaves the receive path, CTRL and NOW as they were and does
not depend on the receive path's registers, CTRL.FMT or CTRL.LED_INIT; a receive command leaves the transmit path, CTRL
and NOW as they were and does not depend on the transmit path's registers or CTRL.RES. -/
def Obligations.TransmitAndReceivePathsAreDisjoint : Prop :=
  ∀ (s t : State) (i : Instr), exec i s = .next t →
    (isTransmit i = true → t.block.rx = s.block.rx ∧ t.block.ctrl = s.block.ctrl ∧ t.block.now = s.block.now ∧
      ∀ (rx : RxPath) (fmt ledInit : Bool),
        exec i { s with block := { s.block with rx := rx, ctrl := { s.block.ctrl with fmt := fmt, ledInit := ledInit } } } =
          .next { t with block := { t.block with rx := rx, ctrl := { t.block.ctrl with fmt := fmt, ledInit := ledInit } } }) ∧
    (isReceive i = true → t.block.tx = s.block.tx ∧ t.block.ctrl = s.block.ctrl ∧ t.block.now = s.block.now ∧
      ∀ (tx : TxPath) (res : BitVec 2),
        exec i { s with block := { s.block with tx := tx, ctrl := { s.block.ctrl with res := res } } } =
          .next { t with block := { t.block with tx := tx, ctrl := { t.block.ctrl with res := res } } })

/-- A transmit command and a receive command commute (60_exceptions.md R312). -/
def Obligations.TransmitAndReceiveCommandsCommute : Prop :=
  ∀ (s : State) (i j : Instr), isTransmit i = true → isReceive j = true →
    andThen (exec i s) (exec j) = andThen (exec j s) (exec i)

/-- ERR is sticky: a step clears a set bit only by a W1C write of that bit, SOFT_RESET or rst (10_state.md R36). -/
def Obligations.ErrBitsAreSticky : Prop :=
  ∀ (s t : State) (n : Nat), step s = .next t → s.block.err.getLsbD n = true → t.block.err.getLsbD n = false →
    ∃ i rest, s.port.inputs = i :: rest ∧
      (IsResetInput i ∨ ∃ d : Word, d.getLsbD n = true ∧ i = .access (transactionWord true 0x008#12 d))

/-- An operation raises at most one error bit (bits 0 to 8; bits 9 and 10 are information) (60_exceptions.md R303). -/
def Obligations.AtMostOneErrorBitIsRaised : Prop :=
  ∀ (s t : State) (m n : Nat), step s = .next t → m ≤ 8 → n ≤ 8 →
    s.block.err.getLsbD m = false → t.block.err.getLsbD m = true →
    s.block.err.getLsbD n = false → t.block.err.getLsbD n = true → m = n

/-- The data registers have one writer each: only a completed acquisition of axis a writes AXV_a (R39), that is a reading
on a that fills the window of an acquisition running on a and leaves the channel IDLE; only LATCH_BTN writes BTN (R40), only ENCODE the frame registers (R41), only ms_strobe NOW (R38), besides a reset. -/
def Obligations.DataRegistersHaveOneWriter : Prop :=
  ∀ (s t : State) (i : Input) (rest : List Input), s.port.inputs = i :: rest → step s = .next t → ¬ IsResetInput i →
    (∀ a, t.block.tx.axv.get a ≠ s.block.tx.axv.get a → ∃ (v : BitVec 16) (buf : List Reading),
      i = .adc a v ∧ s.block.tx.ch.get a = .acq buf ∧ buf.length + 1 = (s.block.tx.axc.get a).window.toNat ∧
        t.block.tx.ch.get a = .idle) ∧
    (t.block.tx.btn ≠ s.block.tx.btn → i = cmdInput 0x00000002#32) ∧
    ((t.block.tx.frameLo ≠ s.block.tx.frameLo ∨ t.block.tx.frameHi ≠ s.block.tx.frameHi) → i = cmdInput 0x00000003#32) ∧
    (t.block.now ≠ s.block.now → i = .msStrobe)

/-- A tx transaction is emitted by SEND and by no other command or event, at most one a step (20_memory.md R75). -/
def Obligations.OnlySendEmits : Prop :=
  ∀ s t : State, step s = .next t →
    t.port.sent = s.port.sent ∨ (∃ rest, s.port.inputs = cmdInput 0x00000004#32 :: rest) ∧
      t.port.sent = s.port.sent ++ [s.block.tx.txFrame]

/-- Every frame ever handed to the transport is a joystick frame: identifier 0x18FDD6F1, extended, with the marker bytes
(R211, R214): every step keeps that, from a state of the invariant. -/
def Obligations.SentFramesAreJoystickFrames : Prop :=
  ∀ s t : State, s.Inv → SentOk s → step s = .next t → SentOk t
end

