-- ==== Sys2Proof/Laws/State.lean ====
section
/-! SUPPORT. What each update of the state's records does to each field, one lemma a field, true by definition, so that
no later proof unfolds a record update. -/

namespace Sys2Proof.Machine

@[simp] theorem PerAxis.get_set_same {α : Type} (p : PerAxis α) (a : Axis) (v : α) : (p.set a v).get a = v := by
  cases a <;> rfl

theorem PerAxis.get_set_of_ne {α : Type} (p : PerAxis α) {a a' : Axis} (v : α) (h : a' ≠ a) :
    (p.set a v).get a' = p.get a' := by
  cases a <;> cases a' <;> first | rfl | exact absurd rfl h

theorem PerAxis.get_set {α : Type} (p : PerAxis α) (a a' : Axis) (v : α) :
    (p.set a v).get a' = if a' = a then v else p.get a' := by
  cases a <;> cases a' <;> rfl

theorem PerAxis.ext_get {α : Type} {p q : PerAxis α} (h : ∀ a, p.get a = q.get a) : p = q := by
  cases p with | mk px py => cases q with | mk qx qy => cases h .x; cases h .y; rfl

/-! `TxPath.startAcquisition` -/

@[simp] theorem TxPath.startAcquisition_axc (t : TxPath) (a : Axis) : (t.startAcquisition a).axc = t.axc := rfl
@[simp] theorem TxPath.startAcquisition_axv (t : TxPath) (a : Axis) : (t.startAcquisition a).axv = t.axv := rfl
@[simp] theorem TxPath.startAcquisition_valid (t : TxPath) (a : Axis) : (t.startAcquisition a).valid = t.valid.set a false := rfl
@[simp] theorem TxPath.startAcquisition_ch (t : TxPath) (a : Axis) : (t.startAcquisition a).ch = t.ch.set a (.acq []) := rfl
@[simp] theorem TxPath.startAcquisition_btn (t : TxPath) (a : Axis) : (t.startAcquisition a).btn = t.btn := rfl
@[simp] theorem TxPath.startAcquisition_btnValid (t : TxPath) (a : Axis) : (t.startAcquisition a).btnValid = t.btnValid := rfl
@[simp] theorem TxPath.startAcquisition_frameLo (t : TxPath) (a : Axis) : (t.startAcquisition a).frameLo = t.frameLo := rfl
@[simp] theorem TxPath.startAcquisition_frameHi (t : TxPath) (a : Axis) : (t.startAcquisition a).frameHi = t.frameHi := rfl
@[simp] theorem TxPath.startAcquisition_frameValid (t : TxPath) (a : Axis) : (t.startAcquisition a).frameValid = t.frameValid := rfl

/-! `TxPath.storeReadings` -/

@[simp] theorem TxPath.storeReadings_axc (t : TxPath) (a : Axis) (buf : List Reading) : (t.storeReadings a buf).axc = t.axc := rfl
@[simp] theorem TxPath.storeReadings_axv (t : TxPath) (a : Axis) (buf : List Reading) : (t.storeReadings a buf).axv = t.axv := rfl
@[simp] theorem TxPath.storeReadings_valid (t : TxPath) (a : Axis) (buf : List Reading) : (t.storeReadings a buf).valid = t.valid := rfl
@[simp] theorem TxPath.storeReadings_ch (t : TxPath) (a : Axis) (buf : List Reading) : (t.storeReadings a buf).ch = t.ch.set a (.acq buf) := rfl
@[simp] theorem TxPath.storeReadings_btn (t : TxPath) (a : Axis) (buf : List Reading) : (t.storeReadings a buf).btn = t.btn := rfl
@[simp] theorem TxPath.storeReadings_btnValid (t : TxPath) (a : Axis) (buf : List Reading) : (t.storeReadings a buf).btnValid = t.btnValid := rfl
@[simp] theorem TxPath.storeReadings_frameLo (t : TxPath) (a : Axis) (buf : List Reading) : (t.storeReadings a buf).frameLo = t.frameLo := rfl
@[simp] theorem TxPath.storeReadings_frameHi (t : TxPath) (a : Axis) (buf : List Reading) : (t.storeReadings a buf).frameHi = t.frameHi := rfl
@[simp] theorem TxPath.storeReadings_frameValid (t : TxPath) (a : Axis) (buf : List Reading) : (t.storeReadings a buf).frameValid = t.frameValid := rfl

/-! `TxPath.complete` -/

@[simp] theorem TxPath.complete_axc (t : TxPath) (a : Axis) (v : BitVec 16) : (t.complete a v).axc = t.axc := rfl
@[simp] theorem TxPath.complete_axv (t : TxPath) (a : Axis) (v : BitVec 16) : (t.complete a v).axv = t.axv.set a v := rfl
@[simp] theorem TxPath.complete_valid (t : TxPath) (a : Axis) (v : BitVec 16) : (t.complete a v).valid = t.valid.set a true := rfl
@[simp] theorem TxPath.complete_ch (t : TxPath) (a : Axis) (v : BitVec 16) : (t.complete a v).ch = t.ch.set a .idle := rfl
@[simp] theorem TxPath.complete_btn (t : TxPath) (a : Axis) (v : BitVec 16) : (t.complete a v).btn = t.btn := rfl
@[simp] theorem TxPath.complete_btnValid (t : TxPath) (a : Axis) (v : BitVec 16) : (t.complete a v).btnValid = t.btnValid := rfl
@[simp] theorem TxPath.complete_frameLo (t : TxPath) (a : Axis) (v : BitVec 16) : (t.complete a v).frameLo = t.frameLo := rfl
@[simp] theorem TxPath.complete_frameHi (t : TxPath) (a : Axis) (v : BitVec 16) : (t.complete a v).frameHi = t.frameHi := rfl
@[simp] theorem TxPath.complete_frameValid (t : TxPath) (a : Axis) (v : BitVec 16) : (t.complete a v).frameValid = t.frameValid := rfl

/-! `TxPath.latch` -/

@[simp] theorem TxPath.latch_axc (t : TxPath) (v : BitVec 8) : (t.latch v).axc = t.axc := rfl
@[simp] theorem TxPath.latch_axv (t : TxPath) (v : BitVec 8) : (t.latch v).axv = t.axv := rfl
@[simp] theorem TxPath.latch_valid (t : TxPath) (v : BitVec 8) : (t.latch v).valid = t.valid := rfl
@[simp] theorem TxPath.latch_ch (t : TxPath) (v : BitVec 8) : (t.latch v).ch = t.ch := rfl
@[simp] theorem TxPath.latch_btn (t : TxPath) (v : BitVec 8) : (t.latch v).btn = v := rfl
@[simp] theorem TxPath.latch_btnValid (t : TxPath) (v : BitVec 8) : (t.latch v).btnValid = true := rfl
@[simp] theorem TxPath.latch_frameLo (t : TxPath) (v : BitVec 8) : (t.latch v).frameLo = t.frameLo := rfl
@[simp] theorem TxPath.latch_frameHi (t : TxPath) (v : BitVec 8) : (t.latch v).frameHi = t.frameHi := rfl
@[simp] theorem TxPath.latch_frameValid (t : TxPath) (v : BitVec 8) : (t.latch v).frameValid = t.frameValid := rfl

/-! `TxPath.setFrame` -/

@[simp] theorem TxPath.setFrame_axc (t : TxPath) (p : Payload) : (t.setFrame p).axc = t.axc := rfl
@[simp] theorem TxPath.setFrame_axv (t : TxPath) (p : Payload) : (t.setFrame p).axv = t.axv := rfl
@[simp] theorem TxPath.setFrame_valid (t : TxPath) (p : Payload) : (t.setFrame p).valid = t.valid := rfl
@[simp] theorem TxPath.setFrame_ch (t : TxPath) (p : Payload) : (t.setFrame p).ch = t.ch := rfl
@[simp] theorem TxPath.setFrame_btn (t : TxPath) (p : Payload) : (t.setFrame p).btn = t.btn := rfl
@[simp] theorem TxPath.setFrame_btnValid (t : TxPath) (p : Payload) : (t.setFrame p).btnValid = t.btnValid := rfl
@[simp] theorem TxPath.setFrame_frameLo (t : TxPath) (p : Payload) : (t.setFrame p).frameLo = p.lo := rfl
@[simp] theorem TxPath.setFrame_frameHi (t : TxPath) (p : Payload) : (t.setFrame p).frameHi = p.hi := rfl
@[simp] theorem TxPath.setFrame_frameValid (t : TxPath) (p : Payload) : (t.setFrame p).frameValid = true := rfl

/-! `TxPath.consumeInputs` -/

@[simp] theorem TxPath.consumeInputs_axc (t : TxPath) : (t.consumeInputs).axc = t.axc := rfl
@[simp] theorem TxPath.consumeInputs_axv (t : TxPath) : (t.consumeInputs).axv = t.axv := rfl
@[simp] theorem TxPath.consumeInputs_valid (t : TxPath) : (t.consumeInputs).valid = { x := false, y := false } := rfl
@[simp] theorem TxPath.consumeInputs_ch (t : TxPath) : (t.consumeInputs).ch = t.ch := rfl
@[simp] theorem TxPath.consumeInputs_btn (t : TxPath) : (t.consumeInputs).btn = t.btn := rfl
@[simp] theorem TxPath.consumeInputs_btnValid (t : TxPath) : (t.consumeInputs).btnValid = false := rfl
@[simp] theorem TxPath.consumeInputs_frameLo (t : TxPath) : (t.consumeInputs).frameLo = t.frameLo := rfl
@[simp] theorem TxPath.consumeInputs_frameHi (t : TxPath) : (t.consumeInputs).frameHi = t.frameHi := rfl
@[simp] theorem TxPath.consumeInputs_frameValid (t : TxPath) : (t.consumeInputs).frameValid = t.frameValid := rfl

/-! `TxPath.abandon` -/

@[simp] theorem TxPath.abandon_axc (t : TxPath) : (t.abandon).axc = t.axc := rfl
@[simp] theorem TxPath.abandon_axv (t : TxPath) : (t.abandon).axv = t.axv := rfl
@[simp] theorem TxPath.abandon_valid (t : TxPath) : (t.abandon).valid = { x := false, y := false } := rfl
@[simp] theorem TxPath.abandon_ch (t : TxPath) : (t.abandon).ch = { x := .idle, y := .idle } := rfl
@[simp] theorem TxPath.abandon_btn (t : TxPath) : (t.abandon).btn = t.btn := rfl
@[simp] theorem TxPath.abandon_btnValid (t : TxPath) : (t.abandon).btnValid = false := rfl
@[simp] theorem TxPath.abandon_frameLo (t : TxPath) : (t.abandon).frameLo = t.frameLo := rfl
@[simp] theorem TxPath.abandon_frameHi (t : TxPath) : (t.abandon).frameHi = t.frameHi := rfl
@[simp] theorem TxPath.abandon_frameValid (t : TxPath) : (t.abandon).frameValid = false := rfl

/-! `TxPath.spendFrame` -/

@[simp] theorem TxPath.spendFrame_axc (t : TxPath) : (t.spendFrame).axc = t.axc := rfl
@[simp] theorem TxPath.spendFrame_axv (t : TxPath) : (t.spendFrame).axv = t.axv := rfl
@[simp] theorem TxPath.spendFrame_valid (t : TxPath) : (t.spendFrame).valid = t.valid := rfl
@[simp] theorem TxPath.spendFrame_ch (t : TxPath) : (t.spendFrame).ch = t.ch := rfl
@[simp] theorem TxPath.spendFrame_btn (t : TxPath) : (t.spendFrame).btn = t.btn := rfl
@[simp] theorem TxPath.spendFrame_btnValid (t : TxPath) : (t.spendFrame).btnValid = t.btnValid := rfl
@[simp] theorem TxPath.spendFrame_frameLo (t : TxPath) : (t.spendFrame).frameLo = t.frameLo := rfl
@[simp] theorem TxPath.spendFrame_frameHi (t : TxPath) : (t.spendFrame).frameHi = t.frameHi := rfl
@[simp] theorem TxPath.spendFrame_frameValid (t : TxPath) : (t.spendFrame).frameValid = false := rfl

/-! `TxPath.setAxc` -/

@[simp] theorem TxPath.setAxc_axc (t : TxPath) (a : Axis) (f : AxisConfig → AxisConfig) : (t.setAxc a f).axc = t.axc.set a (f (t.axc.get a)) := rfl
@[simp] theorem TxPath.setAxc_axv (t : TxPath) (a : Axis) (f : AxisConfig → AxisConfig) : (t.setAxc a f).axv = t.axv := rfl
@[simp] theorem TxPath.setAxc_valid (t : TxPath) (a : Axis) (f : AxisConfig → AxisConfig) : (t.setAxc a f).valid = t.valid := rfl
@[simp] theorem TxPath.setAxc_ch (t : TxPath) (a : Axis) (f : AxisConfig → AxisConfig) : (t.setAxc a f).ch = t.ch := rfl
@[simp] theorem TxPath.setAxc_btn (t : TxPath) (a : Axis) (f : AxisConfig → AxisConfig) : (t.setAxc a f).btn = t.btn := rfl
@[simp] theorem TxPath.setAxc_btnValid (t : TxPath) (a : Axis) (f : AxisConfig → AxisConfig) : (t.setAxc a f).btnValid = t.btnValid := rfl
@[simp] theorem TxPath.setAxc_frameLo (t : TxPath) (a : Axis) (f : AxisConfig → AxisConfig) : (t.setAxc a f).frameLo = t.frameLo := rfl
@[simp] theorem TxPath.setAxc_frameHi (t : TxPath) (a : Axis) (f : AxisConfig → AxisConfig) : (t.setAxc a f).frameHi = t.frameHi := rfl
@[simp] theorem TxPath.setAxc_frameValid (t : TxPath) (a : Axis) (f : AxisConfig → AxisConfig) : (t.setAxc a f).frameValid = t.frameValid := rfl

/-! `RxPath.setAccepted` -/

@[simp] theorem RxPath.setAccepted_filters (r : RxPath) (v : Bool) : (r.setAccepted v).filters = r.filters := rfl
@[simp] theorem RxPath.setAccepted_rxId (r : RxPath) (v : Bool) : (r.setAccepted v).rxId = r.rxId := rfl
@[simp] theorem RxPath.setAccepted_rxLen (r : RxPath) (v : Bool) : (r.setAccepted v).rxLen = r.rxLen := rfl
@[simp] theorem RxPath.setAccepted_rxDataLo (r : RxPath) (v : Bool) : (r.setAccepted v).rxDataLo = r.rxDataLo := rfl
@[simp] theorem RxPath.setAccepted_rxDataHi (r : RxPath) (v : Bool) : (r.setAccepted v).rxDataHi = r.rxDataHi := rfl
@[simp] theorem RxPath.setAccepted_rxAccepted (r : RxPath) (v : Bool) : (r.setAccepted v).rxAccepted = v := rfl
@[simp] theorem RxPath.setAccepted_leds (r : RxPath) (v : Bool) : (r.setAccepted v).leds = r.leds := rfl

/-! `RxPath.setFilter` -/

@[simp] theorem RxPath.setFilter_filters (r : RxPath) (i : Nat) (f : CanFilter → CanFilter) : (r.setFilter i f).filters = r.filters.modify i f := rfl
@[simp] theorem RxPath.setFilter_rxId (r : RxPath) (i : Nat) (f : CanFilter → CanFilter) : (r.setFilter i f).rxId = r.rxId := rfl
@[simp] theorem RxPath.setFilter_rxLen (r : RxPath) (i : Nat) (f : CanFilter → CanFilter) : (r.setFilter i f).rxLen = r.rxLen := rfl
@[simp] theorem RxPath.setFilter_rxDataLo (r : RxPath) (i : Nat) (f : CanFilter → CanFilter) : (r.setFilter i f).rxDataLo = r.rxDataLo := rfl
@[simp] theorem RxPath.setFilter_rxDataHi (r : RxPath) (i : Nat) (f : CanFilter → CanFilter) : (r.setFilter i f).rxDataHi = r.rxDataHi := rfl
@[simp] theorem RxPath.setFilter_rxAccepted (r : RxPath) (i : Nat) (f : CanFilter → CanFilter) : (r.setFilter i f).rxAccepted = r.rxAccepted := rfl
@[simp] theorem RxPath.setFilter_leds (r : RxPath) (i : Nat) (f : CanFilter → CanFilter) : (r.setFilter i f).leds = r.leds := rfl

/-! `Block.onTx` -/

@[simp] theorem Block.onTx_ctrl (b : Block) (f : TxPath → TxPath) : (b.onTx f).ctrl = b.ctrl := rfl
@[simp] theorem Block.onTx_err (b : Block) (f : TxPath → TxPath) : (b.onTx f).err = b.err := rfl
@[simp] theorem Block.onTx_now (b : Block) (f : TxPath → TxPath) : (b.onTx f).now = b.now := rfl
@[simp] theorem Block.onTx_tx (b : Block) (f : TxPath → TxPath) : (b.onTx f).tx = f b.tx := rfl
@[simp] theorem Block.onTx_rx (b : Block) (f : TxPath → TxPath) : (b.onTx f).rx = b.rx := rfl

/-! `Block.onRx` -/

@[simp] theorem Block.onRx_ctrl (b : Block) (f : RxPath → RxPath) : (b.onRx f).ctrl = b.ctrl := rfl
@[simp] theorem Block.onRx_err (b : Block) (f : RxPath → RxPath) : (b.onRx f).err = b.err := rfl
@[simp] theorem Block.onRx_now (b : Block) (f : RxPath → RxPath) : (b.onRx f).now = b.now := rfl
@[simp] theorem Block.onRx_tx (b : Block) (f : RxPath → RxPath) : (b.onRx f).tx = b.tx := rfl
@[simp] theorem Block.onRx_rx (b : Block) (f : RxPath → RxPath) : (b.onRx f).rx = f b.rx := rfl

/-! `Block.raise` -/

@[simp] theorem Block.raise_ctrl (b : Block) (e : ErrBit) : (b.raise e).ctrl = b.ctrl := rfl
@[simp] theorem Block.raise_err (b : Block) (e : ErrBit) : (b.raise e).err = b.err ||| BitVec.twoPow 11 e.index := rfl
@[simp] theorem Block.raise_now (b : Block) (e : ErrBit) : (b.raise e).now = b.now := rfl
@[simp] theorem Block.raise_tx (b : Block) (e : ErrBit) : (b.raise e).tx = b.tx := rfl
@[simp] theorem Block.raise_rx (b : Block) (e : ErrBit) : (b.raise e).rx = b.rx := rfl

/-! `Block.noteIf` -/

@[simp] theorem Block.noteIf_ctrl (b : Block) (c : Bool) (e : ErrBit) : (b.noteIf c e).ctrl = b.ctrl := by cases c <;> simp [Block.noteIf, Block.raise]
@[simp] theorem Block.noteIf_err (b : Block) (c : Bool) (e : ErrBit) : (b.noteIf c e).err = b.err ||| (if c then BitVec.twoPow 11 e.index else 0) := by cases c <;> simp [Block.noteIf, Block.raise]
@[simp] theorem Block.noteIf_now (b : Block) (c : Bool) (e : ErrBit) : (b.noteIf c e).now = b.now := by cases c <;> simp [Block.noteIf, Block.raise]
@[simp] theorem Block.noteIf_tx (b : Block) (c : Bool) (e : ErrBit) : (b.noteIf c e).tx = b.tx := by cases c <;> simp [Block.noteIf, Block.raise]
@[simp] theorem Block.noteIf_rx (b : Block) (c : Bool) (e : ErrBit) : (b.noteIf c e).rx = b.rx := by cases c <;> simp [Block.noteIf, Block.raise]

/-! `Block.clearErrors` -/

@[simp] theorem Block.clearErrors_ctrl (b : Block) (d : Word) : (b.clearErrors d).ctrl = b.ctrl := rfl
@[simp] theorem Block.clearErrors_err (b : Block) (d : Word) : (b.clearErrors d).err = b.err &&& ~~~(d.setWidth 11) := rfl
@[simp] theorem Block.clearErrors_now (b : Block) (d : Word) : (b.clearErrors d).now = b.now := rfl
@[simp] theorem Block.clearErrors_tx (b : Block) (d : Word) : (b.clearErrors d).tx = b.tx := rfl
@[simp] theorem Block.clearErrors_rx (b : Block) (d : Word) : (b.clearErrors d).rx = b.rx := rfl

/-! `Block.enable` -/

@[simp] theorem Block.enable_ctrl (b : Block) (n : Nat) : (b.enable n).ctrl = { b.ctrl with en := true } := rfl
@[simp] theorem Block.enable_err (b : Block) (n : Nat) : (b.enable n).err = b.err := rfl
@[simp] theorem Block.enable_now (b : Block) (n : Nat) : (b.enable n).now = b.now := rfl
@[simp] theorem Block.enable_tx (b : Block) (n : Nat) : (b.enable n).tx = b.tx := rfl
@[simp] theorem Block.enable_rx (b : Block) (n : Nat) : (b.enable n).rx = { b.rx with leds := List.replicate n (Led.initial b.ctrl.ledInit b.now) } := rfl

/-! `Block.disable` -/

@[simp] theorem Block.disable_ctrl (b : Block) : (b.disable).ctrl = { b.ctrl with en := false } := rfl
@[simp] theorem Block.disable_err (b : Block) : (b.disable).err = b.err := rfl
@[simp] theorem Block.disable_now (b : Block) : (b.disable).now = b.now := rfl
@[simp] theorem Block.disable_tx (b : Block) : (b.disable).tx = b.tx.abandon := rfl
@[simp] theorem Block.disable_rx (b : Block) : (b.disable).rx = b.rx := rfl

/-! `Block.tick` -/

@[simp] theorem Block.tick_ctrl (b : Block) : (b.tick).ctrl = b.ctrl := rfl
@[simp] theorem Block.tick_err (b : Block) : (b.tick).err = b.err := rfl
@[simp] theorem Block.tick_now (b : Block) : (b.tick).now = b.now := rfl
@[simp] theorem Block.tick_tx (b : Block) : (b.tick).tx = b.tx := rfl
@[simp] theorem Block.tick_rx (b : Block) : (b.tick).rx = { b.rx with leds := b.rx.leds.map (tickLed b.now) } := rfl

/-! `Block.afterSend` -/

@[simp] theorem Block.afterSend_ctrl (b : Block) (r : TxResult) : (b.afterSend r).ctrl = b.ctrl := by cases r <;> simp [Block.afterSend]
@[simp] theorem Block.afterSend_err (b : Block) (r : TxResult) : (b.afterSend r).err = b.err ||| (if r = .fail then BitVec.twoPow 11 ErrBit.txFail.index else 0) := by cases r <;> simp [Block.afterSend]
@[simp] theorem Block.afterSend_now (b : Block) (r : TxResult) : (b.afterSend r).now = b.now := by cases r <;> simp [Block.afterSend]
@[simp] theorem Block.afterSend_tx (b : Block) (r : TxResult) : (b.afterSend r).tx = b.tx.spendFrame := by cases r <;> simp [Block.afterSend]
@[simp] theorem Block.afterSend_rx (b : Block) (r : TxResult) : (b.afterSend r).rx = b.rx := by cases r <;> simp [Block.afterSend]

@[simp] theorem State.onBlock_build (s : State) (f : Block → Block) : (s.onBlock f).build = s.build := rfl
@[simp] theorem State.onBlock_block (s : State) (f : Block → Block) : (s.onBlock f).block = f s.block := rfl
@[simp] theorem State.onBlock_port (s : State) (f : Block → Block) : (s.onBlock f).port = s.port := rfl

@[simp] theorem State.raise_build (s : State) (e : ErrBit) : (s.raise e).build = s.build := rfl
@[simp] theorem State.raise_block (s : State) (e : ErrBit) : (s.raise e).block = s.block.raise e := rfl
@[simp] theorem State.raise_port (s : State) (e : ErrBit) : (s.raise e).port = s.port := rfl

@[simp] theorem State.resetState_build (s : State) : s.resetState.build = s.build := rfl
@[simp] theorem State.resetState_block (s : State) : s.resetState.block = Block.reset s.build := rfl
@[simp] theorem State.resetState_port (s : State) : s.resetState.port = s.port := rfl

@[simp] theorem State.emit_build (s : State) (x : TxFrame) : (s.emit x).build = s.build := rfl
@[simp] theorem State.emit_block (s : State) (x : TxFrame) : (s.emit x).block = s.block := rfl
@[simp] theorem State.emit_inputs (s : State) (x : TxFrame) : (s.emit x).port.inputs = s.port.inputs := rfl
@[simp] theorem State.emit_pinsNext (s : State) (x : TxFrame) : (s.emit x).port.pinsNext = s.port.pinsNext := rfl
@[simp] theorem State.emit_txNext (s : State) (x : TxFrame) : (s.emit x).port.txNext = s.port.txNext := rfl
@[simp] theorem State.emit_draws (s : State) (x : TxFrame) : (s.emit x).port.draws = s.port.draws := rfl
@[simp] theorem State.emit_reads (s : State) (x : TxFrame) : (s.emit x).port.reads = s.port.reads := rfl
@[simp] theorem State.emit_sent (s : State) (x : TxFrame) : (s.emit x).port.sent = s.port.sent ++ [x] := rfl

@[simp] theorem State.returnData_build (s : State) (v : Word) : (s.returnData v).build = s.build := rfl
@[simp] theorem State.returnData_block (s : State) (v : Word) : (s.returnData v).block = s.block := rfl
@[simp] theorem State.returnData_inputs (s : State) (v : Word) : (s.returnData v).port.inputs = s.port.inputs := rfl
@[simp] theorem State.returnData_pinsNext (s : State) (v : Word) : (s.returnData v).port.pinsNext = s.port.pinsNext := rfl
@[simp] theorem State.returnData_txNext (s : State) (v : Word) : (s.returnData v).port.txNext = s.port.txNext := rfl
@[simp] theorem State.returnData_draws (s : State) (v : Word) : (s.returnData v).port.draws = s.port.draws := rfl
@[simp] theorem State.returnData_reads (s : State) (v : Word) : (s.returnData v).port.reads = s.port.reads ++ [v] := rfl
@[simp] theorem State.returnData_sent (s : State) (v : Word) : (s.returnData v).port.sent = s.port.sent := rfl

@[simp] theorem State.setInputs_build (s : State) (l : List Input) : (s.setInputs l).build = s.build := rfl
@[simp] theorem State.setInputs_block (s : State) (l : List Input) : (s.setInputs l).block = s.block := rfl
@[simp] theorem State.setInputs_inputs (s : State) (l : List Input) : (s.setInputs l).port.inputs = l := rfl
@[simp] theorem State.setInputs_pinsNext (s : State) (l : List Input) : (s.setInputs l).port.pinsNext = s.port.pinsNext := rfl
@[simp] theorem State.setInputs_txNext (s : State) (l : List Input) : (s.setInputs l).port.txNext = s.port.txNext := rfl
@[simp] theorem State.setInputs_draws (s : State) (l : List Input) : (s.setInputs l).port.draws = s.port.draws := rfl
@[simp] theorem State.setInputs_reads (s : State) (l : List Input) : (s.setInputs l).port.reads = s.port.reads := rfl
@[simp] theorem State.setInputs_sent (s : State) (l : List Input) : (s.setInputs l).port.sent = s.port.sent := rfl

@[simp] theorem State.withInput_build (s : State) (i : Input) : (s.withInput i).build = s.build := rfl
@[simp] theorem State.withInput_block (s : State) (i : Input) : (s.withInput i).block = s.block := rfl
@[simp] theorem State.withInput_inputs (s : State) (i : Input) : (s.withInput i).port.inputs = i :: s.port.inputs := rfl
@[simp] theorem State.withInput_pinsNext (s : State) (i : Input) : (s.withInput i).port.pinsNext = s.port.pinsNext := rfl
@[simp] theorem State.withInput_txNext (s : State) (i : Input) : (s.withInput i).port.txNext = s.port.txNext := rfl
@[simp] theorem State.withInput_draws (s : State) (i : Input) : (s.withInput i).port.draws = s.port.draws := rfl
@[simp] theorem State.withInput_reads (s : State) (i : Input) : (s.withInput i).port.reads = s.port.reads := rfl
@[simp] theorem State.withInput_sent (s : State) (i : Input) : (s.withInput i).port.sent = s.port.sent := rfl

@[simp] theorem State.afterPins_build (s : State) : (s.afterPins).build = s.build := by unfold State.afterPins; split <;> simp_all
@[simp] theorem State.afterPins_block (s : State) : (s.afterPins).block = s.block := by unfold State.afterPins; split <;> simp_all
@[simp] theorem State.afterPins_inputs (s : State) : (s.afterPins).port.inputs = s.port.inputs := by unfold State.afterPins; split <;> simp_all
@[simp] theorem State.afterPins_pinsNext (s : State) : (s.afterPins).port.pinsNext = none := by unfold State.afterPins; split <;> simp_all
@[simp] theorem State.afterPins_txNext (s : State) : (s.afterPins).port.txNext = s.port.txNext := by unfold State.afterPins; split <;> simp_all
@[simp] theorem State.afterPins_reads (s : State) : (s.afterPins).port.reads = s.port.reads := by unfold State.afterPins; split <;> simp_all
@[simp] theorem State.afterPins_sent (s : State) : (s.afterPins).port.sent = s.port.sent := by unfold State.afterPins; split <;> simp_all

@[simp] theorem State.afterTx_build (s : State) : (s.afterTx).build = s.build := by unfold State.afterTx; split <;> simp_all
@[simp] theorem State.afterTx_block (s : State) : (s.afterTx).block = s.block := by unfold State.afterTx; split <;> simp_all
@[simp] theorem State.afterTx_inputs (s : State) : (s.afterTx).port.inputs = s.port.inputs := by unfold State.afterTx; split <;> simp_all
@[simp] theorem State.afterTx_pinsNext (s : State) : (s.afterTx).port.pinsNext = s.port.pinsNext := by unfold State.afterTx; split <;> simp_all
@[simp] theorem State.afterTx_txNext (s : State) : (s.afterTx).port.txNext = none := by unfold State.afterTx; split <;> simp_all
@[simp] theorem State.afterTx_reads (s : State) : (s.afterTx).port.reads = s.port.reads := by unfold State.afterTx; split <;> simp_all
@[simp] theorem State.afterTx_sent (s : State) : (s.afterTx).port.sent = s.port.sent := by unfold State.afterTx; split <;> simp_all

@[simp] theorem State.setInputs_self (s : State) : s.setInputs s.port.inputs = s := rfl

@[simp] theorem State.setInputs_setInputs (s : State) (l l' : List Input) : (s.setInputs l).setInputs l' = s.setInputs l' := rfl

@[simp] theorem State.withInput_setInputs (s : State) (i : Input) : (s.withInput i).setInputs s.port.inputs = s := rfl

end Sys2Proof.Machine
end

