-- ==== Sys2Proof/Laws/Effects.lean ====
section
/-! SUPPORT. What a step can do, said once: the ways the block can change, with their guards, and that an instruction
touches only what it answers for at the ports. Whole-machine claims are case analyses of `BlockStep`. -/

namespace Sys2Proof.Machine

/-- The ways one step can change the block. -/
inductive BlockStep (build : Build) (b : Block) : Block → Prop where
  | same : BlockStep build b b
  | raised (e : ErrBit) : BlockStep build b (b.raise e)
  | started (a : Axis) (hen : b.ctrl.en = true) (hch : b.tx.ch.get a = .idle) :
      BlockStep build b (b.onTx (TxPath.startAcquisition a))
  | stored (a : Axis) (buf : List Reading) (v : BitVec 16) (hch : b.tx.ch.get a = .acq buf)
      (hlen : (b.tx.nextBuf a buf v).length ≠ (b.tx.axc.get a).window.toNat) :
      BlockStep build b (b.onTx (TxPath.storeReadings a (b.tx.nextBuf a buf v)))
  | completed (a : Axis) (buf : List Reading) (v value : BitVec 16) (hch : b.tx.ch.get a = .acq buf)
      (hlen : (b.tx.nextBuf a buf v).length = (b.tx.axc.get a).window.toNat)
      (hres : resolve (b.tx.axc.get a) (b.tx.nextBuf a buf v) = some value) :
      BlockStep build b (b.onTx (TxPath.complete a value))
  | latched (raw : Byte) (hen : b.ctrl.en = true) :
      BlockStep build b (b.onTx (TxPath.latch (pressed build.nButtons raw)))
  | packed (res : Resolution) (hen : b.ctrl.en = true) (hfresh : b.tx.fresh = true) (hres : resOf b.ctrl.res = some res) :
      BlockStep build b (b.packFrame build.roundTies res)
  | sent (r : TxResult) (hen : b.ctrl.en = true) (hv : b.tx.frameValid = true) : BlockStep build b (b.afterSend r)
  | received (hen : b.ctrl.en = true) : BlockStep build b (b.receive build.nLeds)
  | ticked (hen : b.ctrl.en = true) : BlockStep build b b.tick
  | wrote (r : Reg) (d : Word) : BlockStep build b (b.writeReg build r d)
  | strobed : BlockStep build b { b with now := b.now + 1 }
  | reset : BlockStep build b (Block.reset build)

/-! exec's arms -/

@[simp] theorem exec_rd (addr : Addr) (s : State) : exec (.rd addr) s = execRd addr s := rfl
@[simp] theorem exec_wr (addr : Addr) (d : Word) (s : State) : exec (.wr addr d) s = execWr addr d s := rfl
@[simp] theorem exec_nop (s : State) : exec .nop s = execNop s := rfl
@[simp] theorem exec_sample (arg : BitVec 8) (s : State) : exec (.sample arg) s = execSample arg s := rfl
@[simp] theorem exec_latchBtn (s : State) : exec .latchBtn s = execLatchBtn s := rfl
@[simp] theorem exec_encode (s : State) : exec .encode s = execEncode s := rfl
@[simp] theorem exec_send (s : State) : exec .send s = execSend s := rfl
@[simp] theorem exec_rxFrame (s : State) : exec .rxFrame s = execRxFrame s := rfl
@[simp] theorem exec_tick (s : State) : exec .tick s = execTick s := rfl
@[simp] theorem exec_softReset (s : State) : exec .softReset s = execSoftReset s := rfl

/-! A write of a register at its offset -/

theorem execWr_cmd (w : Word) (s : State) : execWr 0x00C#12 w s = issueCmd w s := rfl
theorem execWr_ctrl (d : Word) (s : State) :
    execWr 0x000#12 d s = .next (s.onBlock (Block.writeCtrl s.build d)) := rfl
theorem execWr_err (d : Word) (s : State) : execWr 0x008#12 d s = .next (s.onBlock (Block.clearErrors d)) := rfl

/-- A write to a mapped register that is neither CMD nor read-only. -/
theorem execWr_of_regAt {addr : Addr} {r : Reg} {d : Word} {s : State} (h : regAt s.build addr = some r)
    (hro : r.access ≠ .ro) (hcmd : r ≠ .cmd) : execWr addr d s = .next (s.onBlock (Block.writeReg s.build r d)) := by
  unfold execWr busCheck
  rw [h]
  simp only [hro, and_false, if_false]

/-- An issued command runs when enabled, and otherwise only raises CMD_DISABLED. -/
theorem whenEnabled_next {run : State → Result} {s t : State} (h : whenEnabled run s = .next t) :
    (s.block.ctrl.en = true ∧ run s = .next t) ∨ (s.block.ctrl.en = false ∧ t = s.raise .cmdDisabled) := by
  unfold whenEnabled at h
  split at h
  · exact .inl ⟨‹_›, h⟩
  · cases h; exact .inr ⟨Bool.eq_false_iff.2 ‹_›, rfl⟩

@[simp] theorem whenEnabled_of_en {run : State → Result} {s : State} (h : s.block.ctrl.en = true) :
    whenEnabled run s = run s := by simp [whenEnabled, h]

@[simp] theorem whenEnabled_of_not_en {run : State → Result} {s : State} (h : s.block.ctrl.en = false) :
    whenEnabled run s = .next (s.raise .cmdDisabled) := by simp [whenEnabled, h]

theorem sampleAxis_next {a : Axis} {s t : State} (hen : s.block.ctrl.en = true) (h : sampleAxis a s = .next t) :
    t.port = s.port ∧ t.build = s.build ∧ BlockStep s.build s.block t.block := by
  unfold sampleAxis at h
  split at h <;> cases h
  · exact ⟨rfl, rfl, .raised _⟩
  · exact ⟨rfl, rfl, .started a hen ‹_›⟩

theorem execSample_next {arg : BitVec 8} {s t : State} (h : execSample arg s = .next t) :
    t.port = s.port ∧ t.build = s.build ∧ BlockStep s.build s.block t.block := by
  unfold execSample at h
  split at h
  · cases h; exact ⟨rfl, rfl, .raised _⟩
  · obtain ⟨hen, h⟩ | ⟨-, rfl⟩ := whenEnabled_next h
    · exact sampleAxis_next hen h
    · exact ⟨rfl, rfl, .raised _⟩

theorem execLatchBtn_next {s t : State} (h : execLatchBtn s = .next t) :
    t.port.sent = s.port.sent ∧ t.port.inputs = s.port.inputs ∧ t.build = s.build ∧
      BlockStep s.build s.block t.block := by
  obtain ⟨hen, h⟩ | ⟨-, rfl⟩ := whenEnabled_next h
  · cases h
    exact ⟨by simp, by simp, by simp, by simpa using .latched s.drawnPins hen⟩
  · exact ⟨rfl, rfl, rfl, .raised _⟩

theorem execEncode_next {s t : State} (h : execEncode s = .next t) :
    t.port = s.port ∧ t.build = s.build ∧ BlockStep s.build s.block t.block := by
  obtain ⟨hen, h⟩ | ⟨-, rfl⟩ := whenEnabled_next h
  · unfold encodeFrame at h
    split at h
    · split at h <;> cases h
      exact ⟨rfl, rfl, .packed _ hen ‹_› ‹_›⟩
    · cases h; exact ⟨rfl, rfl, .raised _⟩
  · exact ⟨rfl, rfl, .raised _⟩

/-- SEND emits the frame of the frame registers or nothing. -/
theorem execSend_next {s t : State} (h : execSend s = .next t) :
    t.port.inputs = s.port.inputs ∧ t.build = s.build ∧ BlockStep s.build s.block t.block ∧
      (t.port.sent = s.port.sent ∨ s.block.tx.frameValid = true ∧ t.port.sent = s.port.sent ++ [s.block.tx.txFrame]) := by
  obtain ⟨hen, h⟩ | ⟨-, rfl⟩ := whenEnabled_next h
  · unfold sendFrame at h
    split at h <;> cases h
    · exact ⟨by simp, by simp, by simpa using .sent s.drawnTx hen ‹_›, .inr ⟨‹_›, by simp⟩⟩
    · exact ⟨rfl, rfl, .raised _, .inl rfl⟩
  · exact ⟨rfl, rfl, .raised _, .inl rfl⟩

theorem execRxFrame_next {s t : State} (h : execRxFrame s = .next t) :
    t.port = s.port ∧ t.build = s.build ∧ BlockStep s.build s.block t.block := by
  obtain ⟨hen, h⟩ | ⟨-, rfl⟩ := whenEnabled_next h
  · cases h; exact ⟨rfl, rfl, .received hen⟩
  · exact ⟨rfl, rfl, .raised _⟩

theorem execTick_next {s t : State} (h : execTick s = .next t) :
    t.port = s.port ∧ t.build = s.build ∧ BlockStep s.build s.block t.block := by
  obtain ⟨hen, h⟩ | ⟨-, rfl⟩ := whenEnabled_next h
  · cases h; exact ⟨rfl, rfl, .ticked hen⟩
  · exact ⟨rfl, rfl, .raised _⟩

/-- What an instruction does to anything but the bus data and the draws: its block step, and at most one frame sent. -/
structure InstrEffect (s t : State) : Prop where
  build : t.build = s.build
  inputs : t.port.inputs = s.port.inputs
  block : BlockStep s.build s.block t.block
  sent : t.port.sent = s.port.sent ∨
    s.block.tx.frameValid = true ∧ t.port.sent = s.port.sent ++ [s.block.tx.txFrame]

theorem InstrEffect.of_port {s t : State} (h : t.port = s.port ∧ t.build = s.build ∧ BlockStep s.build s.block t.block) :
    InstrEffect s t :=
  ⟨h.2.1, by rw [h.1], h.2.2, .inl (by rw [h.1])⟩

theorem InstrEffect.raised (s : State) (e : ErrBit) : InstrEffect s (s.raise e) := .of_port ⟨rfl, rfl, .raised e⟩

theorem execSend_effect {s t : State} (h : execSend s = .next t) : InstrEffect s t :=
  let ⟨hi, hb, hs, hsent⟩ := execSend_next h
  ⟨hb, hi, hs, hsent⟩

theorem execLatchBtn_effect {s t : State} (h : execLatchBtn s = .next t) : InstrEffect s t :=
  let ⟨hs, hi, hb, hst⟩ := execLatchBtn_next h
  ⟨hb, hi, hst, .inl hs⟩

theorem issueCmd_effect {w : Word} {s t : State} (h : issueCmd w s = .next t) : InstrEffect s t := by
  unfold issueCmd at h
  split at h
  · cases h; exact .raised s _
  · cases h; exact .of_port ⟨rfl, rfl, .same⟩
  · exact .of_port (execSample_next h)
  · exact execLatchBtn_effect h
  · exact .of_port (execEncode_next h)
  · exact execSend_effect h
  · exact .of_port (execRxFrame_next h)
  · exact .of_port (execTick_next h)
  · cases h; exact .of_port ⟨rfl, rfl, .reset⟩
  · cases h; exact .raised s _
  · cases h; exact .raised s _

theorem execWr_effect {addr : Addr} {d : Word} {s t : State} (h : execWr addr d s = .next t) : InstrEffect s t := by
  unfold execWr at h
  split at h
  · cases h; exact .raised s _
  · exact issueCmd_effect h
  · cases h; exact .of_port ⟨rfl, rfl, .wrote _ d⟩

theorem execRd_effect {addr : Addr} {s t : State} (h : execRd addr s = .next t) : InstrEffect s t := by
  unfold execRd at h
  split at h <;> cases h
  · exact ⟨rfl, rfl, .raised _, .inl rfl⟩
  · exact ⟨rfl, rfl, .same, .inl rfl⟩

/-- Everything an instruction can do. -/
theorem exec_effect {i : Instr} {s t : State} (h : exec i s = .next t) : InstrEffect s t := by
  cases i with
  | rd addr => exact execRd_effect h
  | wr addr d => exact execWr_effect h
  | nop => cases h; exact .of_port ⟨rfl, rfl, .same⟩
  | sample arg => exact .of_port (execSample_next h)
  | latchBtn => exact execLatchBtn_effect h
  | encode => exact .of_port (execEncode_next h)
  | send => exact execSend_effect h
  | rxFrame => exact .of_port (execRxFrame_next h)
  | tick => exact .of_port (execTick_next h)
  | softReset => cases h; exact .of_port ⟨rfl, rfl, .reset⟩

/-- The three things a reading can do: nothing on an idle channel, be stored, complete the acquisition. -/
theorem adcEvent_cases {a : Axis} {v : BitVec 16} {s t : State} (h : adcEvent a v s = .next t) :
    (s.block.tx.ch.get a = .idle ∧ t = s) ∨
    ∃ buf, s.block.tx.ch.get a = .acq buf ∧
      (((s.block.tx.nextBuf a buf v).length ≠ (s.block.tx.axc.get a).window.toNat ∧
          t = s.onBlock (Block.onTx (TxPath.storeReadings a (s.block.tx.nextBuf a buf v)))) ∨
        ((s.block.tx.nextBuf a buf v).length = (s.block.tx.axc.get a).window.toNat ∧
          ∃ value, resolve (s.block.tx.axc.get a) (s.block.tx.nextBuf a buf v) = some value ∧
            t = s.onBlock (Block.onTx (TxPath.complete a value)))) := by
  unfold adcEvent at h
  split at h
  · cases h; exact .inl ⟨‹_›, rfl⟩
  · refine .inr ⟨_, ‹_›, ?_⟩
    dsimp only at h
    split at h
    · split at h <;> cases h
      exact .inr ⟨‹_›, _, ‹_›, rfl⟩
    · cases h; exact .inl ⟨‹_›, rfl⟩

/-- Everything a reading can do to the block, and that it does nothing else. -/
theorem adcEvent_effect {a : Axis} {v : BitVec 16} {s t : State} (h : adcEvent a v s = .next t) :
    t.port = s.port ∧ t.build = s.build ∧ BlockStep s.build s.block t.block := by
  obtain ⟨-, rfl⟩ | ⟨buf, hch, ⟨hlen, rfl⟩ | ⟨hlen, value, hres, rfl⟩⟩ := adcEvent_cases h
  · exact ⟨rfl, rfl, .same⟩
  · exact ⟨rfl, rfl, .stored a buf v hch hlen⟩
  · exact ⟨rfl, rfl, .completed a buf v value hch hlen hres⟩

/-- Everything one input can do. -/
theorem takeInput_effect {i : Input} {s t : State} (h : takeInput i s = .next t) : InstrEffect s t := by
  cases i with
  | access w =>
    unfold takeInput at h
    dsimp only at h
    split at h
    · exact exec_effect h
    · cases h
  | adc a v => exact .of_port (adcEvent_effect h)
  | msStrobe => cases h; exact .of_port ⟨rfl, rfl, .strobed⟩
  | rst => cases h; exact .of_port ⟨rfl, rfl, .reset⟩
  | pins b => cases h; exact ⟨rfl, rfl, .same, .inl rfl⟩
  | txAnswer r => cases h; exact ⟨rfl, rfl, .same, .inl rfl⟩

/-- A step waits, or takes the oldest input. -/
theorem step_cases {s t : State} (h : step s = .next t) :
    (s.port.inputs = [] ∧ t = s) ∨
      ∃ i rest, s.port.inputs = i :: rest ∧ takeInput i (s.setInputs rest) = .next t := by
  unfold step takeNext at h
  split at h
  · cases h; exact .inl ⟨‹_›, rfl⟩
  · exact .inr ⟨_, _, ‹_›, h⟩

/-- A step that takes an input is that input's. -/
theorem step_of_inputs {s : State} {i : Input} {rest : List Input} (h : s.port.inputs = i :: rest) :
    step s = takeInput i (s.setInputs rest) := by
  unfold step takeNext; rw [h]

/-- Every step changes the block in one of the ways of `BlockStep` and keeps the build. -/
theorem step_blockStep {s t : State} (h : step s = .next t) :
    t.build = s.build ∧ BlockStep s.build s.block t.block := by
  obtain ⟨-, rfl⟩ | ⟨i, rest, -, h⟩ := step_cases h
  · exact ⟨rfl, .same⟩
  · exact ⟨(takeInput_effect h).build, by simpa using (takeInput_effect h).block⟩

/-- A step sends nothing, or the unsent frame of the frame registers. -/
theorem step_sent {s t : State} (h : step s = .next t) :
    t.port.sent = s.port.sent ∨
      s.block.tx.frameValid = true ∧ t.port.sent = s.port.sent ++ [s.block.tx.txFrame] := by
  obtain ⟨-, rfl⟩ | ⟨i, rest, -, h⟩ := step_cases h
  · exact .inl rfl
  · simpa using (takeInput_effect h).sent

end Sys2Proof.Machine
end

