-- ==== Sys2Proof/Laws/Bus.lean ====
section
/-! SUPPORT. What the bus's operations give: the map from offsets to registers, a write of a configuration register,
the validation of a configuration. -/

namespace Sys2Proof.Machine

/-- An offset names only a register the build has, whose offset it is. -/
theorem regAtOffset_sound {b : Build} {n : Nat} {r : Reg} (h : regAtOffset b n = some r) :
    r.inBuild b ∧ n = r.offset := by
  unfold regAtOffset at h
  split at h; · cases h
  split at h
  · have : n = 4 * (n / 4) := by omega
    have hk : n / 4 < 16 := by omega
    generalize n / 4 = k at *
    interval_cases k <;> simp [lowRegs] at h <;> subst h <;> simp [Reg.inBuild, Reg.offset, Axis.index, this]
  split at h
  · have : n = 64 + 4 * ((n - 64) / 4) := by omega
    have hk : (n - 64) / 4 < 4 := by omega
    generalize (n - 64) / 4 = k at *
    interval_cases k <;> simp [axisRegs] at h <;> subst h <;> simp [Reg.inBuild, Reg.offset, Axis.index, this]
  split at h
  · have : n = 80 + 4 * ((n - 80) / 4) := by omega
    have hk : (n - 80) / 4 < 4 := by omega
    generalize (n - 80) / 4 = k at *
    interval_cases k <;> simp [axisRegs] at h <;> subst h <;> simp [Reg.inBuild, Reg.offset, Axis.index, this]
  split at h; · cases h
  split at h
  · split at h
    · rename_i hf
      have hk : (n - 128) % 16 / 4 < 4 := by omega
      have : n = 128 + 16 * ((n - 128) / 16) + 4 * ((n - 128) % 16 / 4) := by omega
      generalize (n - 128) % 16 / 4 = k at *
      generalize (n - 128) / 16 = f at *
      interval_cases k <;> simp [filterRegs] at h <;> subst h <;> simp [Reg.inBuild, Reg.offset, hf] <;> omega
    · cases h
  split at h
  · split at h
    · rename_i hi
      have hk : (n - 256) % 8 / 4 < 2 := by omega
      have : n = 256 + 8 * ((n - 256) / 8) + 4 * ((n - 256) % 8 / 4) := by omega
      generalize (n - 256) % 8 / 4 = k at *
      generalize (n - 256) / 8 = i at *
      interval_cases k <;> simp [ledRegs] at h <;> subst h <;> simp [Reg.inBuild, Reg.offset, hi] <;> omega
    · cases h
  · cases h

/-- An access to a register names it by its offset. -/
theorem regAt_sound {b : Build} {addr : Addr} {r : Reg} (h : regAt b addr = some r) :
    r.inBuild b ∧ addr.toNat = r.offset := regAtOffset_sound h

/-- A write to a configuration register other than CTRL. -/
theorem execWr_rwl {s : State} {addr : Addr} {r : Reg} {d : Word} (h : regAt s.build addr = some r)
    (hr : r.access = .rwl) : execWr addr d s = .next (s.onBlock (Block.writeRwl r d)) := by
  rw [execWr_of_regAt h (by rw [hr]; simp) (by rintro rfl; cases hr)]
  unfold Block.writeReg
  cases r <;> first | (cases hr; done) | rfl

/-- One axis's configuration after a store to an axis's configuration. -/
theorem TxPath.setAxc_get (t : TxPath) (a a' : Axis) (f : AxisConfig → AxisConfig) :
    (t.setAxc a f).axc.get a' = if a' = a then f (t.axc.get a) else t.axc.get a' := by
  cases a <;> cases a' <;> rfl

/-- ConfigValid() in words. -/
theorem configValid_iff (windowMax : Nat) (b : Block) : b.configValid windowMax = true ↔
    (∀ a : Axis, 1 ≤ (b.tx.axc.get a).window.toNat ∧ (b.tx.axc.get a).window.toNat ≤ windowMax ∧
      (b.tx.axc.get a).rank.toNat < (b.tx.axc.get a).window.toNat) ∧ b.ctrl.res ≠ 3 := by
  simp only [Block.configValid, axisValid, Bool.and_eq_true, decide_eq_true_eq, ne_eq]
  constructor
  · rintro ⟨⟨hx, hy⟩, hr⟩
    exact ⟨fun a => by cases a <;> assumption, hr⟩
  · rintro ⟨h, hr⟩
    exact ⟨⟨h .x, h .y⟩, hr⟩

/-- What a write of CTRL can do: it keeps everything while enabled but for CFG_LOCKED, or disables; while disabled it
writes the fields, and then stops there, enables, or raises CFG_INVALID. -/
theorem writeCtrl_cases (build : Build) (d : Word) (b : Block) :
    (b.ctrl.en = true ∧ ∃ c : Bool, b.writeCtrl build d = b.noteIf c .cfgLocked ∨
      b.writeCtrl build d = (b.noteIf c .cfgLocked).disable) ∨
    (b.ctrl.en = false ∧ ∃ b' : Block, b' = { b with ctrl := { Ctrl.ofWord d with en := false } } ∧
      (b.writeCtrl build d = b' ∨
        (b'.configValid build.windowMax = true ∧ b.writeCtrl build d = b'.enable build.nLeds) ∨
        b.writeCtrl build d = b'.raise .cfgInvalid)) := by
  cases hen : b.ctrl.en
  · refine .inr ⟨rfl, _, rfl, ?_⟩
    simp only [Block.writeCtrl, hen]
    split <;> rename_i h
    · cases h
    · split
      · split
        · exact .inr (.inl ⟨‹_›, rfl⟩)
        · exact .inr (.inr rfl)
      · exact .inl rfl
  · refine .inl ⟨rfl, decide ((Ctrl.ofWord d).config ≠ b.ctrl.config), ?_⟩
    simp only [Block.writeCtrl, hen, if_true]
    split
    · exact .inl rfl
    · exact .inr rfl

end Sys2Proof.Machine
end

