-- ==== Sys2Proof/Laws/Decode.lean ====
section
/-! SUPPORT. The fields of an assembled word, and a word from its fields: what the encoding claims rest on. -/

namespace Sys2Proof

@[simp] theorem opField_commandWord (arg op : BitVec 8) : opField (commandWord arg op) = op := by
  apply BitVec.eq_of_getLsbD_eq; intro i hi
  simp [opField, commandWord, hi, show i < 32 by omega]

@[simp] theorem argField_commandWord (arg op : BitVec 8) : argField (commandWord arg op) = arg := by
  apply BitVec.eq_of_getLsbD_eq; intro i hi
  simp [argField, commandWord, hi, show 8 + i < 32 by omega]

@[simp] theorem rsvField_commandWord (arg op : BitVec 8) : rsvField (commandWord arg op) = 0 := by
  apply BitVec.eq_of_getLsbD_eq; intro i hi
  simp [rsvField, commandWord, show 16 + i - 8 = 8 + i by omega]
  intros; exact BitVec.getLsbD_of_ge _ _ (by omega)

theorem commandWord_of_fields {w : BitVec 32} (h : rsvField w = 0) : commandWord (argField w) (opField w) = w := by
  apply BitVec.eq_of_getLsbD_eq; intro i hi
  have hr := congrArg (fun x => x.getLsbD (i - 16)) h
  simp only [rsvField, BitVec.getLsbD_extractLsb'] at hr
  by_cases h8 : i < 8
  · simp [commandWord, argField, opField, h8, hi]
  · by_cases h16 : i < 16
    · simp [commandWord, argField, opField, h8, hi, show i - 8 < 8 by omega, show 8 + (i - 8) = i by omega]
    · simp [commandWord, argField, opField, h8, hi, show ¬ i - 8 < 8 by omega]
      simpa [show i - 16 < 16 by omega, show 16 + (i - 16) = i by omega, BitVec.getLsbD_eq_getElem, hi] using hr

theorem commandWord_toNat (arg op : BitVec 8) : (commandWord arg op).toNat = 256 * arg.toNat + op.toNat := by
  have ha := arg.isLt
  have ho := op.isLt
  have h : arg.toNat <<< 8 ||| op.toNat = 2 ^ 8 * arg.toNat + op.toNat := by
    rw [Nat.shiftLeft_eq, Nat.mul_comm]; exact (Nat.two_pow_add_eq_or_of_lt ho _).symm
  simp only [commandWord, BitVec.toNat_or, BitVec.toNat_shiftLeft, BitVec.toNat_setWidth, Nat.shiftLeft_eq]
  rw [Nat.mod_eq_of_lt (show arg.toNat < 2 ^ 32 by omega), Nat.mod_eq_of_lt (show op.toNat < 2 ^ 32 by omega),
    Nat.mod_eq_of_lt (show arg.toNat * 2 ^ 8 < 2 ^ 32 by omega), ← Nat.shiftLeft_eq, h]
  omega

@[simp] theorem writeBit_transactionWord (wr : Bool) (addr : Addr) (d : Word) :
    writeBit (transactionWord wr addr d) = wr := by
  cases wr <;> simp [writeBit, transactionWord]

@[simp] theorem addrField_transactionWord (wr : Bool) (addr : Addr) (d : Word) :
    addrField (transactionWord wr addr d) = addr := by
  apply BitVec.eq_of_getLsbD_eq; intro i hi
  cases wr <;>
    simp [addrField, transactionWord, hi, show 32 + i < 45 by omega, show ¬ (32 + i = 44) by omega]

@[simp] theorem dataField_transactionWord (wr : Bool) (addr : Addr) (d : Word) :
    dataField (transactionWord wr addr d) = d := by
  apply BitVec.eq_of_getLsbD_eq; intro i hi
  cases wr <;>
    simp [dataField, transactionWord, hi, show i < 45 by omega]
  omega

theorem transactionWord_of_fields (w : BitVec 45) : transactionWord (writeBit w) (addrField w) (dataField w) = w := by
  apply BitVec.eq_of_getLsbD_eq; intro i hi
  by_cases h32 : i < 32
  · cases h : writeBit w <;>
      simp [transactionWord, addrField, dataField, h32, hi] <;> omega
  · by_cases h44 : i = 44
    · subst h44
      cases h : writeBit w <;> simp [transactionWord, addrField, dataField] <;>
        simpa [writeBit] using h
    · cases h : writeBit w <;>
        simp [transactionWord, addrField, dataField, h32, hi, h44, show i - 32 < 12 by omega,
          show 32 + (i - 32) = i by omega]

end Sys2Proof
end

