-- ==== Sys2Proof/Laws/FramePacker.lean ====
section
/-! SUPPORT. What the rescale's rounding and the axis byte give, as arithmetic and as bits. -/

namespace Sys2Proof.Machine

/-- Rounding by remainder: below half down, above half up, a tie by the tie rule. -/
theorem roundShift_cases (ties : RoundTies) {S : Nat} (v : Nat) (hS : 0 < S) :
    (2 * (v % 2 ^ S) < 2 ^ S ∧ roundShift ties S v = v / 2 ^ S) ∨
    (2 ^ S < 2 * (v % 2 ^ S) ∧ roundShift ties S v = v / 2 ^ S + 1) ∨
    (2 * (v % 2 ^ S) = 2 ^ S ∧ roundShift ties S v =
      match ties with
      | .halfUp => v / 2 ^ S + 1
      | .halfEven => v / 2 ^ S + v / 2 ^ S % 2) := by
  obtain ⟨k, rfl⟩ : ∃ k, S = k + 1 := ⟨S - 1, by omega⟩
  have e : 2 ^ (k + 1) = 2 * 2 ^ k := by rw [Nat.pow_succ]; omega
  simp only [roundShift, Nat.add_sub_cancel, e]
  split
  · exact .inr (.inl ⟨by omega, rfl⟩)
  · split
    · exact .inl ⟨by omega, rfl⟩
    · exact .inr (.inr ⟨by omega, by cases ties <;> rfl⟩)

theorem baseByte_cases (res : Resolution) (axis : Axis) : baseByte res axis = 0 ∨ baseByte res axis = 3 := by
  cases res <;> cases axis <;> decide

/-- A scaled value's magnitude fits 13 bits, with room for -4096. -/
theorem natAbs_le_of_scaled {res : Resolution} {s : Int} (h1 : -(2 ^ res.bits : Int) ≤ s) (h2 : s ≤ 2 ^ res.bits - 1) :
    s.natAbs ≤ 4096 := by
  cases res <;> simp [Resolution.bits] at h1 h2 <;> omega

theorem magLo_toNat (s : Int) : (magLo s).toNat = s.natAbs % 256 := by
  simp [magLo, magnitude, BitVec.extractLsb'_toNat]

theorem magHi_toNat {s : Int} (h : s.natAbs ≤ 4096) : (magHi s).toNat = s.natAbs / 256 := by
  simp [magHi, magnitude, BitVec.extractLsb'_toNat, Nat.shiftRight_eq_div_pow]; omega

theorem getLsbD_magHi (s : Int) {i : Nat} (hi : i < 8) : (magHi s).getLsbD i = s.natAbs.testBit (8 + i) := by
  simp [magHi, magnitude, hi, BitVec.getLsbD_ofNat]; intros; omega

end Sys2Proof.Machine
end

