-- ==== Sys2Proof/Laws/Operands.lean ====
section
/-! SUPPORT. What the operand forms and the image helpers give: SAMPLE's ARG, byte lanes, flag bits. -/

namespace Sys2Proof.Machine

theorem axisOfArg_of_index {arg : BitVec 8} {a : Axis} (h : arg.toNat = a.index) : axisOfArg arg = some a := by
  cases a
  · have : arg = 0 := BitVec.eq_of_toNat_eq h
    subst this; rfl
  · have : arg = 1 := BitVec.eq_of_toNat_eq h
    subst this; rfl

theorem axisOfArg_of_gt {arg : BitVec 8} (h : 1 < arg.toNat) : axisOfArg arg = none := by
  unfold axisOfArg
  rw [if_neg (by rintro rfl; simp at h), if_neg (by rintro rfl; simp at h)]

theorem getLsbD_flagAt (k : Nat) (v : Bool) (n : Nat) (hk : k < 32) : (flagAt k v).getLsbD n = (v && decide (n = k)) := by
  cases v <;> simp [flagAt, BitVec.getLsbD_twoPow, hk, eq_comm]

theorem flagAt_toNat (k : Nat) (v : Bool) (hk : k < 32) : (flagAt k v).toNat = 2 ^ k * v.toNat := by
  cases v
  · simp [flagAt]
  · simp only [flagAt, if_true, BitVec.toNat_twoPow, Bool.toNat_true, Nat.mul_one]
    exact Nat.mod_eq_of_lt (Nat.pow_lt_pow_right (by decide) hk)

theorem getLsbD_ofLanes (l0 l1 l2 l3 : Byte) (n : Nat) (hn : n < 32) : (ofLanes l0 l1 l2 l3).getLsbD n =
    (if n < 8 then l0.getLsbD n else if n < 16 then l1.getLsbD (n - 8) else if n < 24 then l2.getLsbD (n - 16)
      else l3.getLsbD (n - 24)) := by
  have h (l : Byte) (k : Nat) (hk : 8 ≤ k) : l.getLsbD k = false := BitVec.getLsbD_of_ge l k hk
  simp only [ofLanes, BitVec.getLsbD_or, BitVec.getLsbD_shiftLeft, BitVec.getLsbD_setWidth, hn]
  split
  · simp [show n < 16 by omega, show n < 24 by omega, *]
  · split
    · simp [h l0 n (by omega), show n < 24 by omega, show n - 8 < 32 by omega, *]
    · split
      · simp [h l0 n (by omega), h l1 (n - 8) (by omega), show n - 16 < 32 by omega, *]
      · simp [h l0 n (by omega), h l1 (n - 8) (by omega), h l2 (n - 16) (by omega), show n - 24 < 32 by omega, *]

@[simp] theorem lane_zero_ofLanes (l0 l1 l2 l3 : Byte) : lane 0 (ofLanes l0 l1 l2 l3) = l0 := by
  apply BitVec.eq_of_getLsbD_eq; intro i hi
  simp [lane, hi, -BitVec.getLsbD_or, getLsbD_ofLanes _ _ _ _ i (by omega)]

@[simp] theorem lane_three_ofLanes (l0 l1 l2 l3 : Byte) : lane 3 (ofLanes l0 l1 l2 l3) = l3 := by
  apply BitVec.eq_of_getLsbD_eq; intro i hi
  rw [lane, BitVec.getLsbD_extractLsb', getLsbD_ofLanes _ _ _ _ _ (by omega)]
  simp [hi, show ¬ 8 * 3 + i < 8 by omega, show ¬ 8 * 3 + i < 16 by omega, show ¬ 8 * 3 + i < 24 by omega]

theorem ofLanes_toNat (l0 l1 l2 l3 : Byte) :
    (ofLanes l0 l1 l2 l3).toNat = l0.toNat + 2 ^ 8 * l1.toNat + 2 ^ 16 * l2.toNat + 2 ^ 24 * l3.toNat := by
  have h0 := l0.isLt
  have h1 := l1.isLt
  have h2 := l2.isLt
  have h3 := l3.isLt
  have e1 : l0.toNat ||| 2 ^ 8 * l1.toNat = 2 ^ 8 * l1.toNat + l0.toNat := by
    rw [Nat.or_comm]; exact (Nat.two_pow_add_eq_or_of_lt (by omega) _).symm
  have e2 : (2 ^ 8 * l1.toNat + l0.toNat) ||| 2 ^ 16 * l2.toNat = 2 ^ 16 * l2.toNat + (2 ^ 8 * l1.toNat + l0.toNat) := by
    rw [Nat.or_comm]; exact (Nat.two_pow_add_eq_or_of_lt (by omega) _).symm
  have e3 : (2 ^ 16 * l2.toNat + (2 ^ 8 * l1.toNat + l0.toNat)) ||| 2 ^ 24 * l3.toNat =
      2 ^ 24 * l3.toNat + (2 ^ 16 * l2.toNat + (2 ^ 8 * l1.toNat + l0.toNat)) := by
    rw [Nat.or_comm]; exact (Nat.two_pow_add_eq_or_of_lt (by omega) _).symm
  simp only [ofLanes, BitVec.toNat_or, BitVec.toNat_shiftLeft, BitVec.toNat_setWidth, Nat.shiftLeft_eq]
  rw [Nat.mod_eq_of_lt (show l0.toNat < 2 ^ 32 by omega), Nat.mod_eq_of_lt (show l1.toNat < 2 ^ 32 by omega),
    Nat.mod_eq_of_lt (show l2.toNat < 2 ^ 32 by omega), Nat.mod_eq_of_lt (show l3.toNat < 2 ^ 32 by omega),
    Nat.mod_eq_of_lt (show l1.toNat * 2 ^ 8 < 2 ^ 32 by omega), Nat.mod_eq_of_lt (show l2.toNat * 2 ^ 16 < 2 ^ 32 by omega),
    Nat.mod_eq_of_lt (show l3.toNat * 2 ^ 24 < 2 ^ 32 by omega), Nat.mul_comm l1.toNat, Nat.mul_comm l2.toNat,
    Nat.mul_comm l3.toNat, e1, e2, e3]
  omega

theorem lane_toNat (n : Nat) (w : Word) : (lane n w).toNat = w.toNat / 2 ^ (8 * n) % 256 := by
  simp [lane, BitVec.extractLsb'_toNat, Nat.shiftRight_eq_div_pow]

end Sys2Proof.Machine
end

