-- ==== Sys2Proof/Laws/PerInstr.lean ====
section
/-! SUPPORT. Statements about every instruction as syntax, one lemma per constructor. -/

namespace Sys2Proof.Laws

/-- An instruction is written in format C exactly when it is a command (30_encoding.md R101, R105). -/
def Format.Statement (i : Instr) : Prop := i.isCommand = true ↔ ∃ w, encode i = .command w

namespace Format

theorem rd (addr : Addr) : Statement (.rd addr) := by simp [Statement, Instr.isCommand, encode]
theorem wr (addr : Addr) (data : Word) : Statement (.wr addr data) := by simp [Statement, Instr.isCommand, encode]
theorem nop : Statement .nop := by simp [Statement, Instr.isCommand, encode]
theorem sample (arg : BitVec 8) : Statement (.sample arg) := by simp [Statement, Instr.isCommand, encode]
theorem latchBtn : Statement .latchBtn := by simp [Statement, Instr.isCommand, encode]
theorem encode : Statement .encode := by simp [Statement, Instr.isCommand, Sys2Proof.encode]
theorem send : Statement .send := by simp [Statement, Instr.isCommand, Sys2Proof.encode]
theorem rxFrame : Statement .rxFrame := by simp [Statement, Instr.isCommand, Sys2Proof.encode]
theorem tick : Statement .tick := by simp [Statement, Instr.isCommand, Sys2Proof.encode]
theorem softReset : Statement .softReset := by simp [Statement, Instr.isCommand, Sys2Proof.encode]

end Format

end Sys2Proof.Laws
end

