-- ==== Sys2Proof/Laws/Sampler.lean ====
section
/-! SUPPORT. What the sampler's pure functions give: the sort, the transform, the resolution of a full buffer. -/

namespace Sys2Proof.Machine

theorem insertAsc_perm (x : Reading) (l : List Reading) : (insertAsc x l).Perm (x :: l) := by
  induction l with
  | nil => exact .refl _
  | cons y l ih =>
    simp only [insertAsc]
    split
    · exact .refl _
    · exact (ih.cons y).trans (.swap _ _ _)

/-- The sort loses no reading and invents none. -/
theorem sortAsc_perm (l : List Reading) : (sortAsc l).Perm l := by
  induction l with
  | nil => exact .refl _
  | cons y l ih => exact (insertAsc_perm _ _).trans (ih.cons y)

@[simp] theorem sortAsc_length (l : List Reading) : (sortAsc l).length = l.length := (sortAsc_perm l).length_eq

theorem insertAsc_sorted (x : Reading) {l : List Reading} (h : l.Pairwise (fun a b => a.toNat ≤ b.toNat)) :
    (insertAsc x l).Pairwise (fun a b => a.toNat ≤ b.toNat) := by
  induction l with
  | nil => simp [insertAsc]
  | cons y l ih =>
    obtain ⟨hy, hl⟩ := List.pairwise_cons.1 h
    simp only [insertAsc]
    split
    · rename_i hxy
      refine List.pairwise_cons.2 ⟨fun z hz => ?_, h⟩
      rcases List.mem_cons.1 hz with rfl | hz
      · exact hxy
      · exact Nat.le_trans hxy (hy z hz)
    · refine List.pairwise_cons.2 ⟨fun z hz => ?_, ih hl⟩
      rcases List.mem_cons.1 ((insertAsc_perm x l).mem_iff.1 hz) with rfl | hz
      · omega
      · exact hy z hz

/-- The sort is in non-decreasing order. -/
theorem sortAsc_sorted (l : List Reading) : (sortAsc l).Pairwise (fun a b => a.toNat ≤ b.toNat) := by
  induction l with
  | nil => exact .nil
  | cons y l ih => exact insertAsc_sorted _ ih

/-- A full buffer resolves to a value when RANK is below the number of readings. -/
theorem resolve_isSome {cfg : AxisConfig} {buf : List Reading} (h : cfg.rank.toNat < buf.length) :
    ∃ value, resolve cfg buf = some value := by
  have hl : cfg.rank.toNat < (sortAsc buf).length := by simpa using h
  simp [resolve, select, List.getElem?_eq_getElem hl]

theorem transform_toNat (inverted : Bool) (v : BitVec 16) :
    (transform inverted v).toNat = if inverted then 65536 - v.toNat else v.toNat := by
  have := v.isLt
  cases inverted <;> simp [transform] <;> omega

theorem transform_le (inverted : Bool) (v : BitVec 16) : (transform inverted v).toNat ≤ 65536 := by
  have := v.isLt
  rw [transform_toNat]; split <;> omega

end Sys2Proof.Machine
end

