-- ==== Sys2Proof/Laws/StatusRx.lean ====
section
/-! SUPPORT. What the receive side's functions give: the bytes of the RX registers, repeated targets, repeated ticks. -/

namespace Sys2Proof.Machine

/-- Byte `n` of the frame in the RX registers, where it is present. -/
theorem RxPath.getElem?_bytes (r : RxPath) (h : r.rxLen.toNat ≤ 8) (n : Nat) :
    r.bytes[n]? = if n < r.rxLen.toNat
      then some (BitVec.ofNat 8 ((r.rxDataLo.toNat + 2 ^ 32 * r.rxDataHi.toNat) / 2 ^ (8 * n))) else none := by
  have key : ∀ j, j < 8 → (Payload.ofRegs r.rxDataLo r.rxDataHi).bytes[j]? =
      some (BitVec.ofNat 8 ((r.rxDataLo.toNat + 2 ^ 32 * r.rxDataHi.toNat) / 2 ^ (8 * j))) := by
    have h1 := r.rxDataLo.isLt
    have h2 := r.rxDataHi.isLt
    intro j hj
    interval_cases j <;>
      simp only [Payload.bytes, Payload.ofRegs, List.getElem?_cons_zero, List.getElem?_cons_succ, Option.some.injEq] <;>
      apply BitVec.eq_of_toNat_eq <;> rw [lane_toNat] <;> simp <;> omega
  unfold RxPath.bytes
  rw [List.getElem?_take]
  split
  · exact key n (by omega)
  · rfl

theorem filterMatch_of_mem {filters : List CanFilter} {id : Word} {f : CanFilter} (hf : f ∈ filters) (he : f.en = true)
    (hm : id &&& f.mask = f.address &&& f.mask) : filterMatch filters id = true := by
  rw [filterMatch, List.any_eq_true]
  exact ⟨f, hf, by simp [CanFilter.accepts, he, hm]⟩

theorem filterMatch_eq_false {filters : List CanFilter} {id : Word}
    (h : ∀ f ∈ filters, f.en = true → id &&& f.mask ≠ f.address &&& f.mask) : filterMatch filters id = false := by
  rw [filterMatch, List.any_eq_false]
  intro f hf
  simp only [CanFilter.accepts, Bool.and_eq_true, decide_eq_true_eq, not_and]
  exact h f hf

theorem applyTarget_target (now : Word) (t : LedTarget) (l : Led) : (applyTarget now t l).target = t := by
  unfold applyTarget
  split
  · exact (‹t = l.target›).symm
  · split <;> rfl

/-- A target applied twice is applied once. -/
theorem applyTarget_applyTarget (now : Word) (t : LedTarget) (l : Led) :
    applyTarget now t (applyTarget now t l) = applyTarget now t l := by
  have h : ∀ l' : Led, l'.target = t → applyTarget now t l' = l' := fun l' h => by rw [applyTarget, if_pos h.symm]
  exact h _ (applyTarget_target now t l)

theorem tickLed_target (now : Word) (l : Led) : (tickLed now l).target = l.target := by
  unfold tickLed
  split
  · rfl
  · split <;> rfl

/-- A second tick at the same time finds nothing due. -/
theorem tickLed_tickLed (now : Word) (l : Led) : tickLed now (tickLed now l) = tickLed now l := by
  cases h : l.target.period with
  | none => simp [tickLed, h]
  | some p =>
    have hp : 0 < p := by
      cases ht : l.target <;> simp [ht, LedTarget.period, Config.periodSlow, Config.periodMed, Config.periodFast] at h <;>
        omega
    by_cases he : p ≤ l.elapsed now
    · have e : tickLed now l = { l with phase := !l.phase, lastToggle := now } := by simp [tickLed, h, he]
      have hn : ¬ p ≤ Led.elapsed now { l with phase := !l.phase, lastToggle := now } := by simp [Led.elapsed]; omega
      rw [e]; simp only [tickLed, h, if_neg hn]
    · have e : tickLed now l = l := by simp [tickLed, h, he]
      rw [e, e]

end Sys2Proof.Machine
end

