-- ==== Sys2Proof/Tests/Slice0.lean ====
section
/-! SUPPORT. The model's own tests: terms WellFormed refuses, words written out from the spec's encodings, single steps
whose results come from 95_test_vectors.md, and for every obligation with hypotheses a concrete state that meets them. -/

namespace Sys2Proof.Machine.Tests

/-! ## Well-formedness -/

theorem test_wellFormed_refuses_sample_arg_2 : WellFormed (.sample 2) = false := by decide
theorem test_wellFormed_refuses_sample_arg_255 : WellFormed (.sample 0xFF) = false := by decide
theorem test_wellFormed_takes_both_axes : WellFormed (.sample 0) = true ∧ WellFormed (.sample 1) = true := by decide

/-! ## Decoding: words written out field by field (30_encoding.md R102, R103, R105) -/

/-- RSV, ARG, OP. -/
theorem test_decode_nop : decodeCommand 0b0000000000000000_00000000_00000000 = .ok .nop := by decide
theorem test_decode_sample_x : decodeCommand 0b0000000000000000_00000000_00000001 = .ok (.sample 0) := by decide
theorem test_decode_sample_y : decodeCommand 0b0000000000000000_00000001_00000001 = .ok (.sample 1) := by decide
theorem test_decode_latchBtn : decodeCommand 0b0000000000000000_00000000_00000010 = .ok .latchBtn := by decide
theorem test_decode_encode : decodeCommand 0b0000000000000000_00000000_00000011 = .ok .encode := by decide
theorem test_decode_send : decodeCommand 0b0000000000000000_00000000_00000100 = .ok .send := by decide
theorem test_decode_rxFrame : decodeCommand 0b0000000000000000_00000000_00000101 = .ok .rxFrame := by decide
theorem test_decode_tick : decodeCommand 0b0000000000000000_00000000_00000110 = .ok .tick := by decide
theorem test_decode_softReset : decodeCommand 0b0000000000000000_00000000_11111111 = .ok .softReset := by decide
/-- W, ADDR, DATA: line 21 of program P1 (RD STATUS). -/
theorem test_decode_rd :
    decodeTransaction 0b0_000000000100_00000000000000000000000000000000 = .ok (.rd 0x004) := by decide
/-- Line 12 of program P1 (WR CTRL, 9). -/
theorem test_decode_wr :
    decodeTransaction 0b1_000000000000_00000000000000000000000000001001 = .ok (.wr 0x000 9) := by decide
/-- R103: W = 0 with DATA != 0 encodes no transaction. -/
theorem test_decode_rd_with_data :
    decodeTransaction 0b0_000000000100_00000000000000000000000000000001 = .error .readWithData := by decide
/-- V-CMD-1 to V-CMD-4 and V-CMD-8. -/
theorem test_decode_illegal_words : decodeCommand 0x00000007 = .error .illegalCommand ∧
    decodeCommand 0x00010001 = .error .illegalCommand ∧ decodeCommand 0x00000201 = .error .illegalCommand ∧
    decodeCommand 0x00000100 = .error .illegalCommand ∧ decodeCommand 0x000000FE = .error .illegalCommand := by decide
/-- The host's numbering: format C of 32 bits, format B in 6 bytes. -/
theorem test_decodeTableWord : decodeTableWord 32 0x101 = some (.sample 1) ∧
    decodeTableWord 48 0x104002008000 = some (.wr 0x040 0x02008000) ∧ decodeTableWord 32 7 = none := by decide

/-! ## Small states -/

/-- The spec's defaults with one tie rule; no expected value below depends on it. -/
def build : Build := { nButtons := 6, nLeds := 9, nFilters := 4, windowMax := 2048, roundTies := .halfEven }

/-- An axis of window 3 and rank 1, as in V-SMP-20 to V-SMP-24. -/
def axis : AxisConfig := { center := 0, deadZone := 0, window := 3, rank := 1, inverted := false }

/-- The filter of source scenario S6. -/
def filter : CanFilter := { address := 0x00EF0002, mask := 0x000000FF, en := true, ext := false }

/-- A disabled block that an enable finds valid. -/
def configured : Block :=
  let b := Block.reset build
  { b with tx := { b.tx with axc := { x := axis, y := axis } },
           rx := { b.rx with filters := filter :: List.replicate 3 CanFilter.reset } }

/-- The block after WR CTRL, 9: enabled, batch, res 12. -/
def enabled : Block := { configured with ctrl := { en := true, fmt := false, res := 2, ledInit := false } }

/-- The block with one reading taken on axis X. -/
def acquiring : Block := { enabled with tx := { enabled.tx with ch := { x := .acq [7], y := .idle } } }

/-- The block with the three inputs of a frame fresh. -/
def fresh (x y : BitVec 16) (btn : BitVec 8) : Block :=
  { enabled with tx := { enabled.tx with axv := { x := x, y := y }, valid := { x := true, y := true },
                                         btn := btn, btnValid := true } }

/-- The block with an unsent frame, that of V-ENC-1. -/
def framed : Block :=
  { enabled with tx := { enabled.tx with frameLo := 0x00030003, frameHi := 0x1F0000FF, frameValid := true } }

/-- The block with a frame in the RX registers. -/
def receiving (fmt : Bool) (id : Word) (len : BitVec 4) (lo : Word) : Block :=
  { enabled with ctrl := { enabled.ctrl with fmt := fmt },
                 rx := { enabled.rx with rxId := id, rxLen := len, rxDataLo := lo } }

/-- The block with the indicator of V-LED-12, due at NOW = 5000. -/
def blinking : Block :=
  { enabled with now := 5000, rx := { enabled.rx with
      leds := { target := .slowBlink, phase := false, lastToggle := 3900 } :: List.replicate 8 Led.reset } }

/-- A state of a block and its coming inputs. -/
def state (b : Block) (inputs : List Input) : State := { build := build, block := b, port := { Ports.empty with inputs := inputs } }

/-- The block after. -/
def blockOf : Result → Option Block
  | .next t => some t.block
  | .fault _ => none
  | .refused _ => none

/-- The ports after. -/
def portOf : Result → Option Ports
  | .next t => some t.port
  | .fault _ => none
  | .refused _ => none

/-! ## Single steps -/

/-- V-BUS-1: an unmapped RD returns 0 and sets BUS_ERR. -/
theorem test_rd_unmapped : (blockOf (exec (.rd 0x03C) (state enabled []))).map Block.err = some 0x100 ∧
    (portOf (exec (.rd 0x03C) (state enabled []))).map Ports.reads = some [0] := by decide
/-- Line 13 of program P1. -/
theorem test_rd_ctrl : (portOf (exec (.rd 0x000) (state enabled []))).map Ports.reads = some [0x00000009] := by decide
/-- V-BUS-7: only LEN is stored. -/
theorem test_wr_rxLen : (blockOf (exec (.wr 0x02C 0x25) (state enabled []))).map (fun b => b.image .rxLen) = some 5 := by decide
/-- V-CFG-7: EN 0 with FMT changed disables, keeps FMT and sets CFG_LOCKED. -/
theorem test_wr_ctrl_disables : (blockOf (exec (.wr 0x000 0x0A) (state acquiring []))).map
    (fun b => (b.image .ctrl, b.err, b.tx.ch.x)) = some (0x08, 0x004, .idle) := by decide
/-- V-CMD-6. -/
theorem test_nop : blockOf (exec (.wr 0x00C 0) (state configured [])) = some configured := by decide
/-- V-SMP-24. -/
theorem test_sample_overrun : (blockOf (exec (.sample 0) (state acquiring []))).map (fun b => (b.err, b.tx.ch.x)) =
    some (0x010, .acq [7]) := by decide
/-- V-SMP-25. -/
theorem test_sample_disabled : (blockOf (exec (.sample 0) (state configured []))).map (fun b => (b.err, b.tx.ch.x)) =
    some (0x002, .idle) := by decide
/-- V-BTN-3. -/
theorem test_latchBtn : (blockOf (exec .latchBtn
    { state enabled [] with port := { Ports.empty with pinsNext := some 0b011110 } })).map (fun b => (b.tx.btn, b.tx.btnValid)) =
      some (0b100001, true) := by decide
/-- V-ENC-3: clamped X, buttons 0 and 5. -/
theorem test_encode_clamps : (blockOf (exec .encode (state (fresh 65535 0 0b100001) []))).map
    (fun b => (b.tx.frameLo, b.tx.frameHi, b.err)) = some (0x0013FFCF, 0x1F4040FF, 0x200) := by decide
/-- V-ENC-7, which tells the two readings of 90_conflicts.md C1 apart. -/
theorem test_encode_high_bits : (blockOf (exec .encode (state (fresh 40960 26624 0) []))).map
    (fun b => (b.tx.frameLo, b.tx.frameHi, b.err)) = some (0x00D30007, 0x1F0000FF, 0) := by decide
/-- V-SND-2: a FAIL is not retried. -/
theorem test_send_fail : (blockOf (exec .send
    { state framed [] with port := { Ports.empty with txNext := some .fail } })).map (fun b => (b.err, b.tx.frameValid)) =
      some (0x040, false) := by decide
/-- V-SND-1: what is emitted. -/
theorem test_send_emits : (portOf (exec .send (state framed []))).map Ports.sent = 
    some [{ id := 0x18FDD6F1, ext := true, payload := Payload.mk 0x03 0x00 0x03 0x00 0xFF 0x00 0x00 0x1F }] := by decide
/-- V-RX-3: 0x5A, the high nibble first, both codes a fallback. -/
theorem test_rxFrame_fallback : (blockOf (exec .rxFrame (state (receiving false 0x18EFF102 1 0x5A) []))).map
    (fun b => (b.image .ledOut, b.err, b.rx.rxAccepted)) = some (0x002, 0x400, true) := by decide
/-- V-RX-11: k = 3, the low nibble is ignored. -/
theorem test_rxFrame_single : (blockOf (exec .rxFrame (state (receiving true 0x18EFF102 2 0x0F03) []))).map
    (fun b => (b.image .ledOut, b.err)) = some (0x004, 0) := by decide
/-- V-LED-12. -/
theorem test_tick_flips : (blockOf (exec .tick (state blinking []))).map
    (fun b => (b.image (.ledState 0), b.image (.ledLt 0))) = some (0x12, 5000) := by decide
/-- V-LED-10: NOW = 50 and LT = 0xFFFFFFF0 are 66 ms apart. -/
theorem test_tick_wraps : tickLed 50 { target := .fastBlink, phase := false, lastToggle := 0xFFFFFFF0 } =
    { target := .fastBlink, phase := false, lastToggle := 0xFFFFFFF0 } := by decide
/-- V-CMD-7. -/
theorem test_softReset : blockOf (exec .softReset (state (receiving false 0x1234 5 1) [])) = some (Block.reset build) := by
  decide
/-- V-SMP-20's last reading. -/
theorem test_adc_completes : (blockOf (step (state { enabled with tx := { enabled.tx with ch := { x := .acq [1, 2], y := .idle } } }
    [.adc .x 3]))).map (fun b => (b.tx.axv.x, b.image .status)) = some (2, 0x04) := by decide
/-- V-SMP-10: 65536 saturates. -/
theorem test_resolve_saturates : resolve { center := 32768, deadZone := 0, window := 1, rank := 0, inverted := true }
    [transform true 0] = some 65535 := by decide
/-- V-SMP-6 and V-SMP-5, either side of the dead zone. -/
theorem test_resolve_deadZone :
    resolve { center := 32768, deadZone := 512, window := 1, rank := 0, inverted := false } [32257] = some 32768 ∧
      resolve { center := 32768, deadZone := 512, window := 1, rank := 0, inverted := false } [32256] = some 32256 := by
  decide
/-- The tie of res 12 at v = 4, under both rules (95_test_vectors.md 2.3). -/
theorem test_rescale_tie : rescale .halfEven .bits12 4 = -4096 ∧ rescale .halfUp .bits12 4 = -4095 := by decide
/-- 70_reset_and_hazards.md R332. -/
theorem test_rst : blockOf (step (state blinking [.rst])) = some (Block.reset build) := by decide
/-- 45_led_fsm.md R261: NOW wraps, and no indicator flips (V-LED-17). -/
theorem test_strobe_wraps : (blockOf (step (state { enabled with now := 0xFFFFFFFF } [.msStrobe]))).map Block.now = some 0 := by
  decide

/-! ## Witnesses: a state and operands that meet the hypotheses of each obligation -/

theorem test_witness_DecodeOfEncodeIsTheInstruction : WellFormed (.sample 1) = true ∧ WellFormed (.rd 0xFFF) = true := by decide
theorem test_witness_EncodeOfDecodeIsTheWord : decode (.command 0x101) = .ok (.sample 1) ∧
    decode (.transaction 0x0FFF00000000) = .ok (.rd 0xFFF) := by decide
theorem test_witness_LegalCommandWords : (0xFF01#32).toNat = 256 * (0xFF#8).toNat + 1 ∧
    (0x101#32).toNat = 256 * (1#8).toNat + 1 ∧ (0x001#32).toNat = 256 * (0#8).toNat + 1 := by decide
/-- Each reason a word is illegal, at the edges of its range. -/
theorem test_witness_IllegalCommandWordsOnlyRaiseCmdIllegal :
    (∀ w ∈ [0x07#32, 0xFE#32], 7 ≤ w.toNat % 256 ∧ w.toNat % 256 ≤ 0xFE) ∧
      (∀ w ∈ [0x00010000#32, 0xFFFF0000#32], w.toNat / 65536 ≠ 0) ∧
      (∀ w ∈ [0x0201#32, 0xFF01#32], w.toNat % 256 = 1 ∧ 1 < w.toNat / 256 % 256) ∧
      (∀ w ∈ [0x0100#32, 0xFFFF#32], w.toNat % 256 ≠ 1 ∧ w.toNat / 256 % 256 ≠ 0) := by simp
theorem test_witness_TransactionWordFields :
    (∀ w ∈ [0x100000000000#45, 0x1FFFFFFFFFFF#45], 2 ^ 44 ≤ w.toNat) ∧
      (∀ w ∈ [0#45, 0x0FFF00000000#45], w.toNat < 2 ^ 44 ∧ w.toNat % 2 ^ 32 = 0) ∧
      (∀ w ∈ [1#45, 0x0FFFFFFFFFFF#45], w.toNat < 2 ^ 44 ∧ w.toNat % 2 ^ 32 ≠ 0 ∧
        (state enabled [.access w]).port.inputs = .access w :: []) := by simp [state]
theorem test_witness_StepRunsTheDecodedAccess :
    (state enabled [.access 0x100C00000006]).port.inputs = .access 0x100C00000006 :: [] ∧
      decodeTransaction 0x100C00000006 = .ok (.wr 0x00C 6) := by decide
theorem test_witness_FetchedTableWordRuns : decodeTableWord 32 0xFF = some .softReset ∧
    decodeTableWord 45 0x1FFFFFFFFFFF = some (.wr 0xFFF 0xFFFFFFFF) := by decide
theorem test_witness_CmdWriteIssuesTheCommand : decodeCommand 6 = .ok .tick ∧ decodeCommand 7 = .error .illegalCommand ∧
    Instr.tick ≠ .nop ∧ Instr.tick ≠ .softReset ∧ (state configured []).block.ctrl.en = false := by decide
theorem test_witness_StrobeAdvancesNowOnly : (state enabled [.msStrobe]).port.inputs = .msStrobe :: [] := by decide
theorem test_witness_SameClockInputsAreOrdered : (state enabled []).block.ctrl.en = true ∧
    (state enabled []).block.tx.ch.x = .idle ∧ (state enabled []).block.tx.ch.y = .idle := by decide
theorem test_witness_AddressMap : build.wf ∧ (0x03C#12).toNat = 0x03C ∧ (0x060 ≤ (0x060#12).toNat ∧ (0x07F#12).toNat ≤ 0x07F) ∧
    (∃ f, f < 8 ∧ (0x0FC#12).toNat = 0x08C + 0x10 * f) ∧ 0x180 ≤ (0x180#12).toNat :=
  ⟨by decide, by decide, by decide, ⟨7, by decide⟩, by decide⟩
theorem test_witness_RefusedAccess_misaligned : ∀ addr ∈ [0x001#12, 0x006#12, 0xFFF#12], addr.toNat % 4 ≠ 0 := by decide
theorem test_witness_RefusedAccess_unmapped : ∀ r : Reg, r.inBuild (state enabled []).build → r.offset ≠ (0x148#12).toNat := by
  intro r h
  cases r <;> simp_all [Reg.inBuild, Reg.offset, state, build] <;> (try rename_i a; cases a <;> simp [Axis.index]) <;> omega
theorem test_witness_RefusedAccess_readOnly : regAt build 0x144 = some (.ledLt 8) ∧ (Reg.ledLt 8).access = .ro ∧
    regAt build 0x004 = some .status ∧ Reg.status.access = .ro := by decide
theorem test_witness_ReadReturnsTheImage : regAt build 0x000 = some .ctrl ∧ regAt build 0x144 = some (.ledLt 8) := by decide
theorem test_witness_RegisterImages : enabled.rx.filters[0]? = some filter ∧ blinking.rx.leds[8]? = some Led.reset := by decide
theorem test_witness_ConfigurationWrite :
    (∀ b ∈ [configured, enabled], (state b []).block.rx.filters.length = (state b []).build.nFilters) ∧
      regAt build 0x040 = some (.axcCenterDz .x) ∧ (Reg.axcCenterDz .x).access = .rwl ∧
      regAt build 0x0B8 = some (.fltCtl 3) ∧ (Reg.fltCtl 3).access = .rwl ∧
      configured.ctrl.en = false ∧ enabled.ctrl.en = true := by decide
theorem test_witness_ErrWrite : (5 : Nat) < 11 ∧ (10 : Nat) < 11 := by decide
theorem test_witness_CtrlWriteWhileEnabled : (state enabled []).block.ctrl.en = true ∧
    (9#32).getLsbD 0 = true ∧ (0#32).getLsbD 0 = false := by decide
/-- Valid at WINDOW = 1 and at WINDOW_MAX with RANK = WINDOW - 1. -/
theorem test_witness_CtrlWriteWhileDisabled_valid : (state configured []).block.ctrl.en = false ∧ (9#32).getLsbD 0 = true ∧
    (9#32).extractLsb' 2 2 ≠ 3#2 ∧
    ∀ c ∈ [{ axis with window := 1, rank := 0 }, { axis with window := 2048, rank := 2047 }],
      1 ≤ c.window.toNat ∧ c.window.toNat ≤ build.windowMax ∧ c.rank.toNat < c.window.toNat := by decide
/-- Invalid: RES = 3; WINDOW = 0; WINDOW above WINDOW_MAX; RANK = WINDOW. -/
theorem test_witness_CtrlWriteWhileDisabled_invalid : (13#32).getLsbD 0 = true ∧ (13#32).extractLsb' 2 2 = 3#2 ∧
    ∀ c ∈ [{ axis with window := 0 }, { axis with window := 2049 }, { axis with rank := 3 }],
      ¬ (1 ≤ c.window.toNat ∧ c.window.toNat ≤ build.windowMax ∧ c.rank.toNat < c.window.toNat) := by decide
theorem test_witness_SampleStartsAnAcquisition : 1 < (2#8).toNat ∧ (0#8).toNat = Axis.index .x ∧ (1#8).toNat = Axis.index .y ∧
    configured.ctrl.en = false ∧ enabled.ctrl.en = true ∧ enabled.tx.ch.get .y = .idle ∧
    acquiring.tx.ch.get .x ≠ .idle := by decide
/-- An idle channel, a first reading, a last one. -/
theorem test_witness_AdcReading : (state enabled [.adc .x 5]).port.inputs = .adc .x 5 :: [] ∧
    enabled.tx.ch.get .x = .idle ∧ acquiring.tx.ch.get .x = .acq [7] ∧
    [(7 : Reading)].length + 1 ≠ (acquiring.tx.axc.get .x).window.toNat ∧
    [(7 : Reading), 8].length + 1 = (acquiring.tx.axc.get .x).window.toNat ∧
    (acquiring.tx.axc.get .x).rank.toNat < (acquiring.tx.axc.get .x).window.toNat := by decide
theorem test_witness_SampleAndWindow : enabled.ctrl.en = true ∧ enabled.tx.ch.get .x = .idle ∧
    (enabled.tx.axc.get .x).rank.toNat < (enabled.tx.axc.get .x).window.toNat ∧
    [1#16, 2#16, 3#16].length = (enabled.tx.axc.get .x).window.toNat ∧
    (state enabled (.access 0x100C00000001 :: ([1#16, 2#16, 3#16].map (Input.adc .x) ++ []))).port.inputs =
      .access 0x100C00000001 :: ([1#16, 2#16, 3#16].map (Input.adc .x) ++ []) := by decide
/-- V-SMP-14, both ends, and a rank with no element. -/
theorem test_witness_Selection : select 1 [7, 9, 7, 7] = some 7 ∧ select 3 [7, 9, 7, 7] = some 9 ∧
    select 0 [7, 9, 7, 7] = some 7 ∧ select 4 [7, 9, 7, 7] = none := by decide
theorem test_witness_InversionMirrorsTheRank : (0 : Nat) < [1000#16, 2000#16, 3000#16].length ∧
    (2 : Nat) < [1000#16, 2000#16, 3000#16].length := by decide
/-- Inside the dead zone, on its edge, and 65536. -/
theorem test_witness_DeadZone : select 0 [33279] = some 33279 ∧ (33279#17).toNat < 32768 + 512 ∧ 32768 < (33279#17).toNat + 512 ∧
    select 0 [33280] = some 33280 ∧ ¬ ((33280#17).toNat < 32768 + 512) ∧
    select 0 [65536] = some 65536 ∧ (65536#17).toNat ≤ 65536 := by decide

/-- The acquiring state meets the invariant. -/
theorem test_witness_inv_acquiring (inputs : List Input) : (state acquiring inputs).Inv where
  build := show build.wf by decide
  leds := rfl
  filters := rfl
  buttons := show acquiring.tx.btn &&& ~~~(buttonMask 6) = 0 by decide
  enabled := fun _ => show acquiring.configValid 2048 = true by decide
  disabled := fun h => by cases h
  channels := fun a => by
    cases a <;> simp [ChannelOk, PerAxis.get, state, acquiring, enabled, configured, axis, Block.reset, TxPath.reset]
  steady := show ∀ l ∈ List.replicate 9 Led.reset, LedOk l by
    intro l hl; rw [List.eq_of_mem_replicate hl]; intro v hv; cases hv; rfl
  frame := fun h => by cases h

theorem test_witness_StuckAcquisition : (state acquiring [.msStrobe]).Inv ∧ acquiring.tx.ch.get .x ≠ .idle ∧
    (∃ t, step (state acquiring [.msStrobe]) = .next t ∧ t.block.ctrl.en = true) ∧
    (∀ v rest, (state acquiring [.msStrobe]).port.inputs ≠ .adc .x v :: rest) :=
  ⟨test_witness_inv_acquiring _, by decide, ⟨_, rfl, rfl⟩, by intro v rest h; cases h⟩
theorem test_witness_LatchBtn : enabled.ctrl.en = true ∧ configured.ctrl.en = false ∧ (0 : Nat) < 8 ∧ (7 : Nat) < 8 := by decide
/-- A tie. -/
theorem test_witness_Rescale : 2 * ((32772#16).toNat % 2 ^ (15 - Resolution.bits12.bits)) = 2 ^ (15 - Resolution.bits12.bits) := by
  decide
/-- Either side of the threshold (95_test_vectors.md 2.3). -/
theorem test_witness_ClampThreshold : isClamped .bits12 (rescale .halfEven .bits12 65532) = true ∧
    isClamped .bits12 (rescale .halfUp .bits12 65531) = false := by decide
/-- Both ends of each range. -/
theorem test_witness_AxisByte : ∀ res ∈ [Resolution.bits8, .bits10, .bits12], ∀ s ∈ [-(2 ^ res.bits : Int), 2 ^ res.bits - 1],
    -(2 ^ res.bits : Int) ≤ s ∧ s ≤ 2 ^ res.bits - 1 := by decide
theorem test_witness_Encode : (fresh 0 0 0).ctrl.en = true ∧ (fresh 0 0 0).tx.valid.x = true ∧ (fresh 0 0 0).tx.valid.y = true ∧
    (fresh 0 0 0).tx.btnValid = true ∧ Resolution.bits12.bits = 8 + 2 * (fresh 0 0 0).ctrl.res.toNat ∧
    enabled.tx.valid.x = false ∧ configured.ctrl.en = false := by decide
theorem test_witness_Send : framed.ctrl.en = true ∧ framed.tx.frameValid = true ∧ enabled.ctrl.en = true ∧
    enabled.tx.frameValid = false ∧ configured.ctrl.en = false := by decide
/-- V-RX-7 and V-RX-8 (S6). -/
theorem test_witness_RejectedFrames : 8 < (receiving false 0x18EFF102 9 0).rx.rxLen.toNat ∧
    (receiving false 0x18EFF103 8 0).rx.rxLen.toNat ≤ 8 ∧ (receiving false 0x18EFF103 8 0).ctrl.en = true ∧
    ∀ f ∈ (receiving false 0x18EFF103 8 0).rx.filters, f.en = true →
      (receiving false 0x18EFF103 8 0).rx.rxId &&& f.mask ≠ f.address &&& f.mask := by decide
theorem test_witness_StatusCodes : 4 < (5#4).toNat ∧ 4 < (15#4).toNat := by decide
/-- An accepted frame of each format. -/
theorem test_witness_AcceptedFrames : ∀ fmt ∈ [false, true],
    let b := receiving fmt 0x18EFF102 8 0x0F03
    b.ctrl.en = true ∧ b.ctrl.fmt = fmt ∧ b.rx.rxLen.toNat ≤ 8 ∧ filter ∈ b.rx.filters ∧ filter.en = true ∧
      b.rx.rxId &&& filter.mask = filter.address &&& filter.mask ∧ b.rx.leds.length = build.nLeds := by decide
theorem test_witness_RepeatedFrame : ∃ t, exec .rxFrame (state (receiving false 0x18EFF102 1 0x5A) []) = .next t := ⟨_, rfl⟩
theorem test_witness_ApplyTarget : LedTarget.medBlink ≠ Led.reset.target := by decide
theorem test_witness_Tick : blinking.ctrl.en = true ∧ blinking.rx.leds[0]? =
    some { target := .slowBlink, phase := false, lastToggle := 3900 } ∧ configured.ctrl.en = false := by decide
theorem test_witness_SecondTick : ∃ t, exec .tick (state blinking []) = .next t := ⟨_, rfl⟩
theorem test_witness_LedOut : (state blinking []).block.rx.leds.length = (state blinking []).build.nLeds ∧
    (state blinking []).build.nLeds ≤ 16 ∧ blinking.rx.leds[8]? = some Led.reset ∧ build.nLeds ≤ 9 := by decide
theorem test_witness_IndicatorCalls : ∃ t, step (state blinking [cmdInput 6]) = .next t ∧
    indicatorCalls (state blinking [cmdInput 6]) t = [(0, true)] := ⟨_, rfl, by decide⟩
theorem test_witness_Reset : (state blinking [.rst]).port.inputs = .rst :: [] := rfl
theorem test_witness_ResetHasTheInvariant : build.wf ∧ Build.wf { build with nButtons := 8, nLeds := 16, nFilters := 8, windowMax := 2 ^ 32 - 1 } := by
  decide
theorem test_witness_EveryStepKeepsTheInvariant : (state acquiring [.adc .x 5]).Inv ∧
    ∃ t, step (state acquiring [.adc .x 5]) = .next t := ⟨test_witness_inv_acquiring _, ⟨_, rfl⟩⟩
theorem test_witness_NoStepFaults : (state acquiring [.access 1]).Inv ∧
    step (state acquiring [.access 1]) = .refused .notATransaction := ⟨test_witness_inv_acquiring _, rfl⟩
theorem test_witness_ConfigurationIsLocked : ∃ t, step (state enabled [.access 0x104400000001]) = .next t ∧
    enabled.ctrl.en = true ∧ t.block.ctrl.en = true := ⟨_, rfl, rfl, rfl⟩
theorem test_witness_PathsAreDisjoint : (∃ t, exec .encode (state (fresh 0 0 0) []) = .next t) ∧
    (∃ t, exec .tick (state blinking []) = .next t) ∧ isTransmit .encode = true ∧ isReceive .tick = true :=
  ⟨⟨_, rfl⟩, ⟨_, rfl⟩, rfl, rfl⟩
theorem test_witness_CommandsCommute : ∀ i ∈ [Instr.sample 0, .latchBtn, .encode, .send], isTransmit i = true ∧
    ∀ j ∈ [Instr.rxFrame, .tick], isReceive j = true := by decide
theorem test_witness_ErrBitsAreSticky :
    let s := state { enabled with err := 0x120 } [.access 0x100800000100]
    ∃ t, step s = .next t ∧ s.block.err.getLsbD 8 = true ∧ t.block.err.getLsbD 8 = false ∧ t.block.err = 0x020 :=
  ⟨_, rfl, by decide, by decide, by decide⟩
theorem test_witness_AtMostOneErrorBit : ∃ t, step (state configured [cmdInput 6]) = .next t ∧
    configured.err.getLsbD 1 = false ∧ t.block.err.getLsbD 1 = true := ⟨_, rfl, by decide, by decide⟩
/-- One step for each writer. -/
theorem test_witness_OneWriter :
    (∃ t, step (state { acquiring with tx := { acquiring.tx with ch := { x := .acq [7, 8], y := .idle } } } [.adc .x 5]) = .next t ∧
      t.block.tx.axv.get .x ≠ acquiring.tx.axv.get .x) ∧
    (∃ t, step { state enabled [cmdInput 2] with
        port := { Ports.empty with inputs := [cmdInput 2], pinsNext := some 0 } } = .next t ∧ t.block.tx.btn ≠ enabled.tx.btn) ∧
    (∃ t, step (state (fresh 0 0 0) [cmdInput 3]) = .next t ∧ t.block.tx.frameLo ≠ (fresh 0 0 0).tx.frameLo) ∧
    (∃ t, step (state enabled [.msStrobe]) = .next t ∧ t.block.now ≠ enabled.now) ∧
    ∀ i ∈ [.adc .x 5, cmdInput 2, cmdInput 3, .msStrobe], ¬ IsResetInput i :=
  ⟨⟨_, rfl, by decide⟩, ⟨_, rfl, by decide⟩, ⟨_, rfl, by decide⟩, ⟨_, rfl, by decide⟩, by decide⟩
theorem test_witness_OnlySendEmits : ∃ t, step (state framed [cmdInput 4]) = .next t ∧
    t.port.sent = [framed.tx.txFrame] := ⟨_, rfl, by decide⟩
theorem test_witness_SentFrames : (state acquiring [.msStrobe]).Inv ∧ SentOk (state acquiring [.msStrobe]) ∧
    ∃ t, step (state acquiring [.msStrobe]) = .next t :=
  ⟨test_witness_inv_acquiring _, (by intro f h; cases h), ⟨_, rfl⟩⟩

end Sys2Proof.Machine.Tests
end

/-! ## What the commands and the register write do, said once each -/

namespace Sys2Proof.Machine

/-! The commands past the check of CTRL.EN -/

/-- SAMPLE past the check of CTRL.EN: OVERRUN, or a new acquisition. -/
theorem sampleAxis_cases {a : Axis} {s t : State} (h : sampleAxis a s = .next t) :
    ((∃ buf, s.block.tx.ch.get a = .acq buf) ∧ t = s.raise .overrun) ∨
    (s.block.tx.ch.get a = .idle ∧ t = s.onBlock (Block.onTx (TxPath.startAcquisition a))) := by
  unfold sampleAxis at h
  split at h <;> cases h
  · exact .inl ⟨⟨_, ‹_›⟩, rfl⟩
  · exact .inr ⟨‹_›, rfl⟩

/-- ENCODE past the check of CTRL.EN: the frame of fresh inputs, or NOT_VALID. -/
theorem encodeFrame_cases {s t : State} (h : encodeFrame s = .next t) :
    (s.block.tx.fresh = true ∧ ∃ res, resOf s.block.ctrl.res = some res ∧
      t = s.onBlock (Block.packFrame s.build.roundTies res)) ∨
    (s.block.tx.fresh = false ∧ t = s.raise .notValid) := by
  unfold encodeFrame at h
  split at h
  · split at h <;> cases h
    exact .inl ⟨‹_›, _, ‹_›, rfl⟩
  · cases h; exact .inr ⟨Bool.eq_false_iff.2 ‹_›, rfl⟩

/-- SEND past the check of CTRL.EN: the frame is handed over, or NOT_VALID. -/
theorem sendFrame_cases {s t : State} (h : sendFrame s = .next t) :
    (s.block.tx.frameValid = true ∧
      t = (s.emit s.block.tx.txFrame).afterTx.onBlock (Block.afterSend s.drawnTx)) ∨
    (s.block.tx.frameValid = false ∧ t = s.raise .notValid) := by
  unfold sendFrame at h
  split at h <;> cases h
  · exact .inl ⟨‹_›, rfl⟩
  · exact .inr ⟨Bool.eq_false_iff.2 ‹_›, rfl⟩

/-! `Block.packFrame` -/

@[simp] theorem Block.packFrame_ctrl (b : Block) (ties : RoundTies) (res : Resolution) :
    (b.packFrame ties res).ctrl = b.ctrl := by simp [Block.packFrame]
@[simp] theorem Block.packFrame_err (b : Block) (ties : RoundTies) (res : Resolution) :
    (b.packFrame ties res).err =
      b.err ||| (if encodeClamped ties res b.tx.axv.x b.tx.axv.y then BitVec.twoPow 11 ErrBit.clamped.index else 0) := by
  simp [Block.packFrame]
@[simp] theorem Block.packFrame_now (b : Block) (ties : RoundTies) (res : Resolution) :
    (b.packFrame ties res).now = b.now := by simp [Block.packFrame]
@[simp] theorem Block.packFrame_tx (b : Block) (ties : RoundTies) (res : Resolution) :
    (b.packFrame ties res).tx =
      (b.tx.setFrame (encodePayload ties res b.tx.axv.x b.tx.axv.y b.tx.btn)).consumeInputs := by simp [Block.packFrame]
@[simp] theorem Block.packFrame_rx (b : Block) (ties : RoundTies) (res : Resolution) :
    (b.packFrame ties res).rx = b.rx := by simp [Block.packFrame]

/-! `Block.receive` -/

/-- The receive path of an accepted frame, its indicators decoded from the frame (44_status_rx.md R231). -/
def RxPath.accept (decode : List Byte → List Led → List Led) (r : RxPath) : RxPath :=
  { r with rxAccepted := true, leds := decode r.bytes r.leds }

section
variable (n : Nat) {b : Block}

theorem Block.receive_of_tooLong (hlen : 8 < b.rx.rxLen.toNat) : b.receive n = b.raise .rxLen := if_pos hlen

theorem Block.receive_of_rejected (hlen : ¬ 8 < b.rx.rxLen.toNat) (hacc : filterMatch b.rx.filters b.rx.rxId = false) :
    b.receive n = b.onRx (RxPath.setAccepted false) := by
  simp [Block.receive, hlen, hacc]

theorem Block.receive_of_single (hlen : ¬ 8 < b.rx.rxLen.toNat) (hacc : filterMatch b.rx.filters b.rx.rxId = true)
    (hfmt : b.ctrl.fmt = true) : b.receive n = b.onRx (RxPath.accept (decodeSingle n b.now)) := by
  simp only [Block.receive, Block.decodeFrame, hlen, hacc, hfmt, Block.onRx_ctrl, if_true, if_false]
  rfl

theorem Block.receive_of_batch (hlen : ¬ 8 < b.rx.rxLen.toNat) (hacc : filterMatch b.rx.filters b.rx.rxId = true)
    (hfmt : b.ctrl.fmt = false) : b.receive n =
      (b.onRx (RxPath.accept (decodeBatch b.now))).noteIf (batchFallback n b.rx.bytes) .fallback := by
  simp only [Block.receive, Block.decodeFrame, hlen, hacc, hfmt, Block.onRx_ctrl, if_true, if_false]
  rfl

end

/-- RX_FRAME past the check of CTRL.EN: a frame too long, one no filter accepts, or an accepted one in either format
(44_status_rx.md R231, R235). -/
theorem Block.receive_cases (n : Nat) (b : Block) :
    b.receive n = b.raise .rxLen ∨
    b.receive n = b.onRx (RxPath.setAccepted false) ∨
    b.receive n = b.onRx (RxPath.accept (decodeSingle n b.now)) ∨
    b.receive n = (b.onRx (RxPath.accept (decodeBatch b.now))).noteIf (batchFallback n b.rx.bytes) .fallback := by
  by_cases hlen : 8 < b.rx.rxLen.toNat
  · exact .inl (Block.receive_of_tooLong n hlen)
  cases hacc : filterMatch b.rx.filters b.rx.rxId
  · exact .inr (.inl (Block.receive_of_rejected n hlen hacc))
  cases hfmt : b.ctrl.fmt
  · exact .inr (.inr (.inr (Block.receive_of_batch n hlen hacc hfmt)))
  · exact .inr (.inr (.inl (Block.receive_of_single n hlen hacc hfmt)))

section
variable (n : Nat) (b : Block)

@[simp] theorem Block.receive_ctrl : (b.receive n).ctrl = b.ctrl := by
  obtain h | h | h | h := b.receive_cases n <;> simp [h]
@[simp] theorem Block.receive_now : (b.receive n).now = b.now := by
  obtain h | h | h | h := b.receive_cases n <;> simp [h]
@[simp] theorem Block.receive_tx : (b.receive n).tx = b.tx := by
  obtain h | h | h | h := b.receive_cases n <;> simp [h]
@[simp] theorem Block.receive_filters : (b.receive n).rx.filters = b.rx.filters := by
  obtain h | h | h | h := b.receive_cases n <;> simp [h, RxPath.accept]

/-- RX_FRAME leaves the LED table or decodes a frame into it. -/
theorem Block.receive_leds : (b.receive n).rx.leds = b.rx.leds ∨
    (b.receive n).rx.leds = decodeSingle n b.now b.rx.bytes b.rx.leds ∨
    (b.receive n).rx.leds = decodeBatch b.now b.rx.bytes b.rx.leds := by
  obtain h | h | h | h := b.receive_cases n <;> simp [h, RxPath.accept]

end

/-! `Block.writeReg` -/

/-- A store to a configuration register changes one axis's configuration or one filter entry (10_state.md R46 to R50). -/
theorem Block.storeConfig_cases (r : Reg) (d : Word) (b : Block) :
    (∃ a f, b.storeConfig r d = b.onTx (TxPath.setAxc a f)) ∨
    (∃ i f, b.storeConfig r d = b.onRx (RxPath.setFilter i f)) ∨ b.storeConfig r d = b := by
  cases r with
  | axcCenterDz a => exact .inl ⟨a, _, rfl⟩
  | axcWindow a => exact .inl ⟨a, _, rfl⟩
  | axcRank a => exact .inl ⟨a, _, rfl⟩
  | axcFlags a => exact .inl ⟨a, _, rfl⟩
  | fltAddr i => exact .inr (.inl ⟨i, _, rfl⟩)
  | fltMask i => exact .inr (.inl ⟨i, _, rfl⟩)
  | fltCtl i => exact .inr (.inl ⟨i, _, rfl⟩)
  | _ => exact .inr (.inr rfl)

/-- A store to a data register changes the receive path alone, and neither of its tables (40_host_bus.md R140). -/
theorem Block.writeData_cases (r : Reg) (d : Word) (b : Block) :
    ∃ rx : RxPath, b.writeData r d = { b with rx := rx } ∧ rx.filters = b.rx.filters ∧ rx.leds = b.rx.leds := by
  cases r <;> exact ⟨_, rfl, rfl, rfl⟩

/-- What a write of a register can do: CTRL and ERR have their own rules; a configuration register is locked while
enabled and stored while disabled; a data register is stored (40_host_bus.md R132). -/
theorem Block.writeReg_cases (build : Build) (r : Reg) (d : Word) (b : Block) :
    (r = .ctrl ∧ b.writeReg build r d = b.writeCtrl build d) ∨
    (r = .err ∧ b.writeReg build r d = b.clearErrors d) ∨
    (∃ c, b.writeReg build r d = b.noteIf c .cfgLocked) ∨
    (b.ctrl.en = false ∧ ∃ a f, b.writeReg build r d = b.onTx (TxPath.setAxc a f)) ∨
    (b.ctrl.en = false ∧ ∃ i f, b.writeReg build r d = b.onRx (RxPath.setFilter i f)) ∨
    (∃ rx : RxPath, b.writeReg build r d = { b with rx := rx } ∧ rx.filters = b.rx.filters ∧ rx.leds = b.rx.leds) := by
  by_cases hc : r = .ctrl
  · subst hc; exact .inl ⟨rfl, rfl⟩
  by_cases he : r = .err
  · subst he; exact .inr (.inl ⟨rfl, rfl⟩)
  have hw : b.writeReg build r d = if r.access = .rwl then b.writeRwl r d else b.writeData r d := by
    unfold Block.writeReg
    split
    · exact absurd rfl hc
    · exact absurd rfl he
    · rfl
  rw [hw]
  split
  · unfold Block.writeRwl
    split
    · exact .inr (.inr (.inl ⟨_, rfl⟩))
    · have hen : b.ctrl.en = false := Bool.eq_false_iff.2 ‹_›
      obtain ⟨a, f, h⟩ | ⟨i, f, h⟩ | h := b.storeConfig_cases r (d &&& r.storedBits)
      · exact .inr (.inr (.inr (.inl ⟨hen, a, f, h⟩)))
      · exact .inr (.inr (.inr (.inr (.inl ⟨hen, i, f, h⟩))))
      · exact .inr (.inr (.inr (.inr (.inr ⟨b.rx, h, rfl, rfl⟩))))
  · exact .inr (.inr (.inr (.inr (.inr (b.writeData_cases r d)))))

end Sys2Proof.Machine

/-! ## Every step keeps the invariant -/

namespace Sys2Proof.Machine

section
variable {build : Build} {b b' : Block} {p p' : Ports}

/-- A quiet transmit path has both channels idle and no unsent frame (40_host_bus.md R139). -/
theorem TxPath.ch_of_quiet {t : TxPath} (h : t.abandon = t) (a : Axis) : t.ch.get a = .idle := by
  rw [← h]; cases a <;> rfl

theorem TxPath.frameValid_of_quiet {t : TxPath} (h : t.abandon = t) : t.frameValid = false := by
  rw [← h]; rfl

theorem channelOk_of_idle {t : TxPath} {a : Axis} (h : t.ch.get a = .idle) : ChannelOk t a := by
  simp [ChannelOk, h]

theorem channelOk_of_acq {t : TxPath} {a : Axis} {buf : List Reading} (h : t.ch.get a = .acq buf)
    (hlen : buf.length < (t.axc.get a).window.toNat) (hbuf : ∀ r ∈ buf, r.toNat ≤ 65536)
    (hvalid : t.valid.get a = false) : ChannelOk t a := by
  simpa [ChannelOk, h] using ⟨hlen, hbuf, hvalid⟩

/-- What an acquiring channel satisfies. -/
theorem ChannelOk.of_acq {t : TxPath} {a : Axis} {buf : List Reading} (hok : ChannelOk t a)
    (h : t.ch.get a = .acq buf) : buf.length < (t.axc.get a).window.toNat ∧ (∀ r ∈ buf, r.toNat ≤ 65536) ∧
      t.valid.get a = false := by
  simpa [ChannelOk, h] using hok

/-- ChannelOk speaks of one axis: its configuration, its channel and its VALID bit. -/
theorem ChannelOk.congr {t t' : TxPath} {a : Axis} (hok : ChannelOk t a) (hch : t'.ch.get a = t.ch.get a)
    (haxc : t'.axc.get a = t.axc.get a) (hvalid : t'.valid.get a = t.valid.get a) : ChannelOk t' a := by
  simpa only [ChannelOk, hch, haxc, hvalid] using hok

/-- An acquisition runs only while enabled. -/
theorem State.Inv.en_of_acq {a : Axis} {buf : List Reading} (h : State.Inv ⟨build, b, p⟩)
    (hch : b.tx.ch.get a = .acq buf) : b.ctrl.en = true := by
  by_contra hen
  have := TxPath.ch_of_quiet (h.disabled (Bool.eq_false_iff.2 hen)) a
  rw [hch] at this
  cases this

/-- ConfigValid reads the axis configuration and RES alone. -/
theorem configValid_congr (n : Nat) (hctrl : b'.ctrl.res = b.ctrl.res) (haxc : b'.tx.axc = b.tx.axc) :
    b'.configValid n = b.configValid n := by
  simp [Block.configValid, hctrl, haxc]

/-- A step of the transmit path while enabled. -/
theorem State.Inv.of_tx (h : State.Inv ⟨build, b, p⟩) (hen : b.ctrl.en = true) (hctrl : b'.ctrl = b.ctrl)
    (hrx : b'.rx = b.rx) (haxc : b'.tx.axc = b.tx.axc) (hbtn : b'.tx.btn &&& ~~~buttonMask build.nButtons = 0)
    (hch : ∀ a, ChannelOk b'.tx a) (hframe : FrameOk b'.tx) : State.Inv ⟨build, b', p'⟩ where
  build := h.build
  leds := by simpa [hrx] using h.leds
  filters := by simpa [hrx] using h.filters
  buttons := hbtn
  enabled _ := (configValid_congr _ (by rw [hctrl]) haxc).trans (h.enabled hen)
  disabled hdis := by simp [hctrl, hen] at hdis
  channels := hch
  steady := by simpa [hrx] using h.steady
  frame := hframe

/-- A step that leaves CTRL and the transmit path, such as an error raised or an indicator moved. -/
theorem State.Inv.of_rx (h : State.Inv ⟨build, b, p⟩) (hctrl : b'.ctrl = b.ctrl) (htx : b'.tx = b.tx)
    (hleds : b'.rx.leds.length = b.rx.leds.length) (hfilters : b'.rx.filters.length = b.rx.filters.length)
    (hsteady : ∀ l ∈ b'.rx.leds, LedOk l) : State.Inv ⟨build, b', p'⟩ where
  build := h.build
  leds := hleds.trans h.leds
  filters := hfilters.trans h.filters
  buttons := by simpa [ButtonsInRange, htx] using h.buttons
  enabled := by simpa [EnabledIsValid, configValid_congr _ (congrArg Ctrl.res hctrl) (congrArg TxPath.axc htx), hctrl]
    using h.enabled
  disabled := by simpa [DisabledIsQuiet, htx, hctrl] using h.disabled
  channels := by simpa only [htx] using h.channels
  steady := hsteady
  frame := by simpa only [htx] using h.frame

/-- A step that changes neither CTRL, nor a path. -/
theorem State.Inv.of_frame (h : State.Inv ⟨build, b, p⟩) (hctrl : b'.ctrl = b.ctrl) (htx : b'.tx = b.tx)
    (hrx : b'.rx = b.rx) : State.Inv ⟨build, b', p'⟩ :=
  h.of_rx hctrl htx (by rw [hrx]) (by rw [hrx]) (by simpa only [hrx] using h.steady)

/-- A step that ends disabled and quiet: the configuration may be any. -/
theorem State.Inv.of_disabled (h : State.Inv ⟨build, b, p⟩) (hen : b'.ctrl.en = false)
    (hquiet : b'.tx.abandon = b'.tx) (hbtn : b'.tx.btn = b.tx.btn) (hleds : b'.rx.leds = b.rx.leds)
    (hfilters : b'.rx.filters.length = b.rx.filters.length) : State.Inv ⟨build, b', p'⟩ where
  build := h.build
  leds := by simpa [hleds] using h.leds
  filters := hfilters.trans h.filters
  buttons := by simpa [ButtonsInRange, hbtn] using h.buttons
  enabled hen' := by simp [hen] at hen'
  disabled _ := hquiet
  channels a := channelOk_of_idle (TxPath.ch_of_quiet hquiet a)
  steady := by simpa [hleds] using h.steady
  frame hv := by simp [TxPath.frameValid_of_quiet hquiet] at hv

/-- An enable of a validated configuration starts every indicator steady (40_host_bus.md R138). -/
theorem State.Inv.enable (h : State.Inv ⟨build, b, p⟩)
    (hvalid : b.configValid build.windowMax = true) : State.Inv ⟨build, b.enable build.nLeds, p'⟩ where
  build := h.build
  leds := by simp
  filters := h.filters
  buttons := h.buttons
  enabled _ := (configValid_congr _ rfl rfl).trans hvalid
  disabled hdis := by simp at hdis
  channels := h.channels
  steady l hl v hv := by
    obtain ⟨-, rfl⟩ := List.mem_replicate.1 hl
    cases hi : b.ctrl.ledInit <;> simpa [Led.initial, hi, LedTarget.steady] using hv
  frame := h.frame

/-- The reset state of a build within its bounds satisfies the invariant. -/
theorem inv_reset (hwf : build.wf) : State.Inv ⟨build, Block.reset build, p⟩ where
  build := hwf
  leds := List.length_replicate
  filters := List.length_replicate
  buttons := BitVec.zero_and
  enabled hen := by cases hen
  disabled _ := rfl
  channels a := channelOk_of_idle (TxPath.ch_of_quiet rfl a)
  steady l hl := by
    obtain ⟨-, rfl⟩ := List.mem_replicate.1 hl
    rintro v ⟨⟩; rfl
  frame hv := by cases hv

/-! ### The indicators -/

theorem applyTarget_ledOk (now : Word) (t : LedTarget) {l : Led} (h : LedOk l) : LedOk (applyTarget now t l) := by
  unfold applyTarget
  split
  · exact h
  · split <;> rename_i ht <;> intro v hv <;> simp_all

/-- TICK flips blinking indicators alone, and a blink target holds no boolean (45_led_fsm.md R266). -/
theorem tickLed_ledOk (now : Word) {l : Led} (h : LedOk l) : LedOk (tickLed now l) := by
  intro v hv
  rw [tickLed_target] at hv
  have hsteady : l.target.period = none := by
    cases ht : l.target <;> simp_all [LedTarget.steady, LedTarget.period]
  simpa [tickLed, hsteady] using h v hv

@[simp] theorem decodeBatch_length (now : Word) (bytes : List Byte) (leds : List Led) :
    (decodeBatch now bytes leds).length = leds.length := by simp [decodeBatch]

@[simp] theorem decodeSingle_length (n : Nat) (now : Word) (bytes : List Byte) (leds : List Led) :
    (decodeSingle n now bytes leds).length = leds.length := by
  unfold decodeSingle; split <;> simp

theorem decodeBatch_ledOk {now : Word} {bytes : List Byte} {leds : List Led} (h : ∀ l ∈ leds, LedOk l) :
    ∀ l ∈ decodeBatch now bytes leds, LedOk l := by
  intro l hl
  obtain ⟨i, hi, rfl⟩ := List.mem_mapIdx.1 hl
  have hok := h _ (List.getElem_mem hi)
  split
  · exact hok
  · exact applyTarget_ledOk _ _ hok

theorem decodeSingle_ledOk {n : Nat} {now : Word} {bytes : List Byte} {leds : List Led} (h : ∀ l ∈ leds, LedOk l) :
    ∀ l ∈ decodeSingle n now bytes leds, LedOk l := by
  unfold decodeSingle
  split
  · exact h
  · intro l hl
    obtain ⟨j, hj, rfl⟩ := List.mem_iff_getElem.1 hl
    have hok := h _ (List.getElem_mem (by simpa using hj))
    rw [List.getElem_modify]
    split
    · exact applyTarget_ledOk _ _ hok
    · exact hok

end

/-! ### The ways of a step -/

section
variable {build : Build} {b : Block} {p p' : Ports}

/-- SAMPLE opens an empty acquisition, below the window of a validated configuration, and clears VALID. -/
theorem State.Inv.started (h : State.Inv ⟨build, b, p⟩) {a : Axis} (hen : b.ctrl.en = true) :
    State.Inv ⟨build, b.onTx (TxPath.startAcquisition a), p'⟩ := by
  refine h.of_tx hen rfl rfl rfl h.buttons (fun a' => ?_) h.frame
  obtain rfl | hne := eq_or_ne a' a
  · have hwindow := (((configValid_iff _ _).1 (h.enabled hen)).1 a').1
    exact channelOk_of_acq (buf := []) (by simp) hwindow (by simp) (by simp)
  · exact (h.channels a').congr (by simp [PerAxis.get_set_of_ne _ _ hne]) rfl (by simp [PerAxis.get_set_of_ne _ _ hne])

/-- A reading that does not fill the window leaves the acquisition below it, with every reading in range. -/
theorem State.Inv.stored (h : State.Inv ⟨build, b, p⟩) {a : Axis} {buf : List Reading} {v : BitVec 16}
    (hch : b.tx.ch.get a = .acq buf) (hlen : (b.tx.nextBuf a buf v).length ≠ (b.tx.axc.get a).window.toNat) :
    State.Inv ⟨build, b.onTx (TxPath.storeReadings a (b.tx.nextBuf a buf v)), p'⟩ := by
  refine h.of_tx (h.en_of_acq hch) rfl rfl rfl h.buttons (fun a' => ?_) h.frame
  obtain rfl | hne := eq_or_ne a' a
  · obtain ⟨hlt, hbuf, hvalid⟩ : buf.length < (b.tx.axc.get a').window.toNat ∧ _ := (h.channels a').of_acq hch
    have hrange : ∀ r ∈ b.tx.nextBuf a' buf v, r.toNat ≤ 65536 := by
      simpa [TxPath.nextBuf, or_imp, forall_and] using ⟨hbuf, transform_le _ v⟩
    have hlen' : (b.tx.nextBuf a' buf v).length = buf.length + 1 := by simp [TxPath.nextBuf]
    exact channelOk_of_acq (buf := b.tx.nextBuf a' buf v) (by simp) (by simp; omega) hrange hvalid
  · exact (h.channels a').congr (by simp [PerAxis.get_set_of_ne _ _ hne]) rfl rfl

/-- A completed acquisition leaves its channel idle. -/
theorem State.Inv.completed (h : State.Inv ⟨build, b, p⟩) {a : Axis} {buf : List Reading} (value : BitVec 16)
    (hch : b.tx.ch.get a = .acq buf) : State.Inv ⟨build, b.onTx (TxPath.complete a value), p'⟩ := by
  refine h.of_tx (h.en_of_acq hch) rfl rfl rfl h.buttons (fun a' => ?_) h.frame
  obtain rfl | hne := eq_or_ne a' a
  · exact channelOk_of_idle (by simp)
  · exact (h.channels a').congr (by simp [PerAxis.get_set_of_ne _ _ hne]) rfl (by simp [PerAxis.get_set_of_ne _ _ hne])

/-- The bits above the build's buttons are masked off (10_state.md R40). -/
theorem pressed_inRange (n : Nat) (raw : Byte) : pressed n raw &&& ~~~buttonMask n = 0 := by
  simp [pressed, BitVec.and_assoc]

theorem State.Inv.latched (h : State.Inv ⟨build, b, p⟩) (hen : b.ctrl.en = true) (raw : Byte) :
    State.Inv ⟨build, b.onTx (TxPath.latch (pressed build.nButtons raw)), p'⟩ :=
  h.of_tx hen rfl rfl rfl (pressed_inRange _ _) h.channels h.frame

/-- ENCODE consumes its inputs when all are fresh, so that no acquisition has its VALID bit set, and its payload has
the marker bytes (43_frame_packer.md R201, R211). -/
theorem State.Inv.packed (h : State.Inv ⟨build, b, p⟩) (hen : b.ctrl.en = true) (hfresh : b.tx.fresh = true)
    (ties : RoundTies) (res : Resolution) : State.Inv ⟨build, b.packFrame ties res, p'⟩ := by
  refine h.of_tx hen (by simp) (by simp) (by simp) (by rw [Block.packFrame_tx]; exact h.buttons) (fun a => ?_) fun _ => ?_
  · cases hch : b.tx.ch.get a with
    | idle => exact channelOk_of_idle (by simpa using hch)
    | acq buf =>
      obtain ⟨-, -, hvalid⟩ := (h.channels a).of_acq hch
      cases a <;> simp_all [TxPath.fresh, PerAxis.get]
  · simp [Payload.hi, encodePayload]

theorem State.Inv.sent (h : State.Inv ⟨build, b, p⟩) (hen : b.ctrl.en = true) (r : TxResult) :
    State.Inv ⟨build, b.afterSend r, p'⟩ :=
  h.of_tx hen (by simp) (by simp) (by simp) (by rw [Block.afterSend_tx]; exact h.buttons)
    (by rw [Block.afterSend_tx]; exact h.channels) (by simp [FrameOk])

theorem State.Inv.received (h : State.Inv ⟨build, b, p⟩) (n : Nat) : State.Inv ⟨build, b.receive n, p'⟩ := by
  obtain hl | hl | hl := b.receive_leds n
  · exact h.of_rx (by simp) (by simp) (by simp [hl]) (by simp) (by simpa [hl] using h.steady)
  · exact h.of_rx (by simp) (by simp) (by simp [hl]) (by simp) (by simpa only [hl] using decodeSingle_ledOk h.steady)
  · exact h.of_rx (by simp) (by simp) (by simp [hl]) (by simp) (by simpa only [hl] using decodeBatch_ledOk h.steady)

theorem State.Inv.ticked (h : State.Inv ⟨build, b, p⟩) : State.Inv ⟨build, b.tick, p'⟩ := by
  refine h.of_rx rfl rfl (by simp) rfl fun l hl => ?_
  obtain ⟨l', hl', rfl⟩ := List.mem_map.1 hl
  exact tickLed_ledOk _ (h.steady l' hl')

/-- A write of CTRL keeps CTRL, disables into a quiet block, or enables a validated configuration. -/
theorem State.Inv.wroteCtrl (h : State.Inv ⟨build, b, p⟩) (d : Word) : State.Inv ⟨build, b.writeCtrl build d, p'⟩ := by
  obtain ⟨-, c, hw | hw⟩ | ⟨hen, b', rfl, hw | ⟨hvalid, hw⟩ | hw⟩ := writeCtrl_cases build d b <;> rw [hw]
  · exact h.of_frame (by simp) (by simp) (by simp)
  · exact h.of_disabled rfl rfl (by simp) (by simp) (by simp)
  all_goals
    have hfields : State.Inv ⟨build, { b with ctrl := { Ctrl.ofWord d with en := false } }, p'⟩ :=
      h.of_disabled rfl (h.disabled hen) rfl rfl rfl
  · exact hfields
  · exact hfields.enable hvalid
  · exact hfields.of_frame rfl rfl rfl

theorem State.Inv.wrote (h : State.Inv ⟨build, b, p⟩) (r : Reg) (d : Word) :
    State.Inv ⟨build, b.writeReg build r d, p'⟩ := by
  obtain ⟨-, hw⟩ | ⟨-, hw⟩ | ⟨c, hw⟩ | ⟨hen, a, f, hw⟩ | ⟨hen, i, f, hw⟩ | ⟨rx, hw, hfilters, hleds⟩ :=
    b.writeReg_cases build r d <;> rw [hw]
  · exact h.wroteCtrl d
  · exact h.of_frame rfl rfl rfl
  · exact h.of_frame (by simp) (by simp) (by simp)
  · have hquiet : (b.tx.setAxc a f).abandon = b.tx.setAxc a f := congrArg (TxPath.setAxc a f) (h.disabled hen)
    exact h.of_disabled hen hquiet rfl rfl rfl
  · exact h.of_disabled hen (h.disabled hen) rfl rfl (by simp)
  · exact h.of_rx rfl rfl (by simp [hleds]) (by simp [hfilters]) (by simpa [hleds] using h.steady)

/-- Every way the block can change keeps the invariant. -/
theorem State.Inv.blockStep {b' : Block} (h : State.Inv ⟨build, b, p⟩) (hstep : BlockStep build b b') :
    State.Inv ⟨build, b', p'⟩ := by
  cases hstep with
  | same => exact h.of_frame rfl rfl rfl
  | raised e => exact h.of_frame rfl rfl rfl
  | started a hen hch => exact h.started hen
  | stored a buf v hch hlen => exact h.stored hch hlen
  | completed a buf v value hch hlen hres => exact h.completed value hch
  | latched raw hen => exact h.latched hen raw
  | packed res hen hfresh hres => exact h.packed hen hfresh _ res
  | sent r hen hv => exact h.sent hen r
  | received hen => exact h.received _
  | ticked hen => exact h.ticked
  | wrote r d => exact h.wrote r d
  | strobed => exact h.of_frame rfl rfl rfl
  | reset => exact inv_reset h.build

end

/-- Settles O51: each of the ways a step changes the block keeps the invariant. -/
theorem everyStepKeepsTheInvariant : Obligations.EveryStepKeepsTheInvariant := by
  intro s ⟨build, b', p'⟩ h hstep
  obtain ⟨rfl, hblock⟩ := step_blockStep hstep
  exact h.blockStep hblock

end Sys2Proof.Machine

/-! ## The register images -/

namespace Sys2Proof.Machine

/-- BUSY_a is a view of the channel (10_state.md R35). -/
theorem busy_eq (b : Block) (a : Axis) : b.busy a = !decide (b.tx.ch.get a = .idle) := by
  unfold Block.busy
  cases b.tx.ch.get a <;> simp [Channel.isAcq]

theorem getLsbD_statusImage (b : Block) (n : Nat) : b.statusImage.getLsbD n =
    ((b.busy .x && decide (n = 0)) || (b.busy .y && decide (n = 1)) || (b.tx.valid.x && decide (n = 2)) ||
      (b.tx.valid.y && decide (n = 3)) || (b.tx.btnValid && decide (n = 4)) || (b.tx.frameValid && decide (n = 5)) ||
      (b.rx.rxAccepted && decide (n = 6))) := by
  simp [Block.statusImage, getLsbD_flagAt]

/-- Settles O15: each flag stands at its own bit, and bits 7 and up have none. -/
theorem statusImageBits : Obligations.StatusImageBits := by
  intro b n
  have hx : b.busy .x = !decide (b.tx.ch.x = .idle) := busy_eq b .x
  have hy : b.busy .y = !decide (b.tx.ch.y = .idle) := busy_eq b .y
  rw [show b.image .status = b.statusImage from rfl, getLsbD_statusImage, hx, hy]
  by_cases h : n < 7
  · interval_cases n <;> simp
  · have hne (k : Nat) (hk : k < 7) : n ≠ k := by omega
    simp [hne]

theorem Ctrl.image_toNat (c : Ctrl) :
    c.image.toNat = c.en.toNat + 2 * c.fmt.toNat + 4 * c.res.toNat + 16 * c.ledInit.toNat := by
  obtain ⟨en, fmt, res, ledInit⟩ := c
  revert en fmt res ledInit
  decide

theorem CanFilter.ctlImage_toNat (f : CanFilter) : f.ctlImage.toNat = f.en.toNat + 2 * f.ext.toNat := by
  obtain ⟨address, mask, en, ext⟩ := f
  simp only [CanFilter.ctlImage]
  revert en ext
  decide

theorem Led.stateImage_toNat (l : Led) : l.stateImage.toNat = l.target.code.toNat + 16 * l.phase.toNat := by
  simp only [Led.stateImage]
  generalize l.target.code = code
  generalize l.phase = phase
  revert code phase
  decide

/-- Two half words side by side. -/
theorem shiftLeft_or_toNat (hi lo : BitVec 16) :
    ((hi.setWidth 32 <<< 16) ||| lo.setWidth 32 : Word).toNat = lo.toNat + 65536 * hi.toNat := by
  have hhi := hi.isLt
  have hlo := lo.isLt
  have hor : 2 ^ 16 * hi.toNat ||| lo.toNat = 2 ^ 16 * hi.toNat + lo.toNat := (Nat.two_pow_add_eq_or_of_lt hlo _).symm
  simp only [BitVec.toNat_or, BitVec.toNat_shiftLeft, BitVec.toNat_setWidth, Nat.shiftLeft_eq]
  rw [Nat.mod_eq_of_lt (show hi.toNat < 2 ^ 32 by omega), Nat.mod_eq_of_lt (show hi.toNat * 2 ^ 16 < 2 ^ 32 by omega),
    Nat.mod_eq_of_lt (show lo.toNat < 2 ^ 32 by omega), Nat.mul_comm, hor]
  omega

/-- Settles O16: field by field, the composed images by their arithmetic. -/
theorem registerImagesPlaceTheirFields : Obligations.RegisterImagesPlaceTheirFields := by
  intro b a i
  have hflags : (b.image (.axcFlags a)).toNat = (b.tx.axc.get a).inverted.toNat := by
    rw [show b.image (.axcFlags a) = flagAt 0 (b.tx.axc.get a).inverted from rfl, flagAt_toNat _ _ (by decide)]
    simp
  refine ⟨b.ctrl.image_toNat, BitVec.toNat_setWidth_of_le (by decide), rfl, rfl,
    BitVec.toNat_setWidth_of_le (by decide), BitVec.toNat_setWidth_of_le (by decide), rfl, rfl, rfl,
    BitVec.toNat_setWidth_of_le (by decide), rfl, rfl, shiftLeft_or_toNat _ _, rfl, rfl, hflags, ?_, ?_⟩
  · intro f hf
    simp [Block.image, hf, f.ctlImage_toNat]
  · intro l hl
    simp [Block.image, hl, l.stateImage_toNat]

/-- LED_OUT packs the phases, the first indicator's in bit 0 (10_state.md R45). -/
theorem getLsbD_ledOutOf {leds : List Led} {i : Nat} (hi : i < 32) :
    (ledOutOf leds).getLsbD i = (leds[i]?.map Led.phase).getD false := by
  induction leds generalizing i with
  | nil => simp [ledOutOf]
  | cons l rest ih =>
    cases i with
    | zero => simp [ledOutOf, getLsbD_flagAt, -BitVec.getLsbD_eq_getElem]
    | succ i => simp [ledOutOf, getLsbD_flagAt, hi, ih (show i < 32 by omega), -BitVec.getLsbD_eq_getElem]

/-- PHASE is bit 4 of LED_STATE, above the 3-bit TARGET (10_state.md R51). -/
theorem getLsbD_four_stateImage (l : Led) : l.stateImage.getLsbD 4 = l.phase := by
  simp [Led.stateImage, getLsbD_flagAt, -BitVec.getLsbD_eq_getElem]

/-- Settles O46. -/
theorem ledOutIsThePhases : Obligations.LedOutIsThePhases := by
  intro s hlen hmax i
  refine ⟨fun l hl => ⟨?_, ?_⟩, fun hi => ?_⟩
  · have hi : i < s.block.rx.leds.length := (List.getElem?_eq_some_iff.1 hl).1
    rw [show s.block.image .ledOut = ledOutOf s.block.rx.leds from rfl, getLsbD_ledOutOf (by omega), hl]
    rfl
  · rw [show s.block.image (.ledState i) = l.stateImage by simp [Block.image, hl], getLsbD_four_stateImage]
  · by_cases h32 : i < 32
    · rw [show s.block.image .ledOut = ledOutOf s.block.rx.leds from rfl, getLsbD_ledOutOf h32,
        List.getElem?_eq_none (by omega)]
      rfl
    · exact BitVec.getLsbD_of_ge _ _ (by omega)

end Sys2Proof.Machine

/-! ## The transmit and the receive path are disjoint (10_state.md R55) -/

namespace Sys2Proof.Machine

/-- The block with another receive side: its path and its CTRL fields. -/
def Block.withReceiveSide (rx : RxPath) (fmt ledInit : Bool) (b : Block) : Block :=
  { b with rx := rx, ctrl := { b.ctrl with fmt := fmt, ledInit := ledInit } }

/-- The block with another transmit side: its path and its CTRL field. -/
def Block.withTransmitSide (tx : TxPath) (res : BitVec 2) (b : Block) : Block :=
  { b with tx := tx, ctrl := { b.ctrl with res := res } }

/-- A meaning that runs the same after the change `w` of the block, which it does not read. -/
def IndependentOf (w : Block → Block) (m : State → Result) : Prop :=
  ∀ s t, m s = .next t → m (s.onBlock w) = .next (t.onBlock w)

/-- A meaning of the transmit path: it leaves the receive path, CTRL and NOW, and does not read the receive side. -/
structure TransmitLocal (m : State → Result) : Prop where
  rx : ∀ s t, m s = .next t → t.block.rx = s.block.rx
  ctrl : ∀ s t, m s = .next t → t.block.ctrl = s.block.ctrl
  now : ∀ s t, m s = .next t → t.block.now = s.block.now
  independent : ∀ rx fmt ledInit, IndependentOf (Block.withReceiveSide rx fmt ledInit) m

/-- A meaning of the receive path: it leaves the transmit path, CTRL and NOW, and does not read the transmit side. -/
structure ReceiveLocal (m : State → Result) : Prop where
  tx : ∀ s t, m s = .next t → t.block.tx = s.block.tx
  ctrl : ∀ s t, m s = .next t → t.block.ctrl = s.block.ctrl
  now : ∀ s t, m s = .next t → t.block.now = s.block.now
  independent : ∀ tx res, IndependentOf (Block.withTransmitSide tx res) m

/-! ### Errors and the check of CTRL.EN, which belong to neither side -/

theorem TransmitLocal.raised (e : ErrBit) : TransmitLocal fun s => .next (s.raise e) where
  rx := by rintro s _ ⟨⟩; rfl
  ctrl := by rintro s _ ⟨⟩; rfl
  now := by rintro s _ ⟨⟩; rfl
  independent _ _ _ := by rintro s _ ⟨⟩; rfl

/-- What holds of both outcomes of the check of CTRL.EN holds of the command. -/
theorem whenEnabled_keeps {α : Type} {m : State → Result} (f : Block → α) (hraise : ∀ b, f (b.raise .cmdDisabled) = f b)
    (hm : ∀ s t, m s = .next t → f t.block = f s.block) (s t : State) (h : whenEnabled m s = .next t) :
    f t.block = f s.block := by
  obtain ⟨-, h⟩ | ⟨-, rfl⟩ := whenEnabled_next h
  · exact hm s t h
  · exact hraise _

theorem IndependentOf.whenEnabled {w : Block → Block} {m : State → Result} (hen : ∀ b, (w b).ctrl.en = b.ctrl.en)
    (hraise : ∀ b, (w b).raise .cmdDisabled = w (b.raise .cmdDisabled)) (hm : IndependentOf w m) :
    IndependentOf w (Machine.whenEnabled m) := by
  intro s t h
  obtain ⟨hs, h⟩ | ⟨hs, rfl⟩ := whenEnabled_next h
  · rw [whenEnabled_of_en (by simpa [hen] using hs)]
    exact hm s t h
  · rw [whenEnabled_of_not_en (by simpa [hen] using hs)]
    simp [State.raise, State.onBlock, hraise]

theorem TransmitLocal.whenEnabled {m : State → Result} (hm : TransmitLocal m) :
    TransmitLocal (Machine.whenEnabled m) where
  rx := whenEnabled_keeps Block.rx (fun _ => rfl) hm.rx
  ctrl := whenEnabled_keeps Block.ctrl (fun _ => rfl) hm.ctrl
  now := whenEnabled_keeps Block.now (fun _ => rfl) hm.now
  independent rx fmt ledInit := (hm.independent rx fmt ledInit).whenEnabled (fun _ => rfl) fun _ => rfl

theorem ReceiveLocal.whenEnabled {m : State → Result} (hm : ReceiveLocal m) :
    ReceiveLocal (Machine.whenEnabled m) where
  tx := whenEnabled_keeps Block.tx (fun _ => rfl) hm.tx
  ctrl := whenEnabled_keeps Block.ctrl (fun _ => rfl) hm.ctrl
  now := whenEnabled_keeps Block.now (fun _ => rfl) hm.now
  independent tx res := (hm.independent tx res).whenEnabled (fun _ => rfl) fun _ => rfl

/-! ### The commands of the transmit path -/

section
variable (rx : RxPath) (fmt ledInit : Bool)

theorem Block.noteIf_withReceiveSide (b : Block) (c : Bool) (e : ErrBit) :
    (b.withReceiveSide rx fmt ledInit).noteIf c e = (b.noteIf c e).withReceiveSide rx fmt ledInit := by
  cases c <;> rfl

theorem Block.packFrame_withReceiveSide (b : Block) (ties : RoundTies) (res : Resolution) :
    (b.withReceiveSide rx fmt ledInit).packFrame ties res = (b.packFrame ties res).withReceiveSide rx fmt ledInit := by
  unfold Block.packFrame
  rw [← Block.noteIf_withReceiveSide]
  rfl

theorem Block.afterSend_withReceiveSide (b : Block) (r : TxResult) :
    (b.withReceiveSide rx fmt ledInit).afterSend r = (b.afterSend r).withReceiveSide rx fmt ledInit := by
  unfold Block.afterSend
  rw [← Block.noteIf_withReceiveSide]
  rfl

end

/-- The draw of the pins neither reads nor writes the block. -/
theorem State.afterPins_onBlock (s : State) (f : Block → Block) : (s.onBlock f).afterPins = s.afterPins.onBlock f := by
  simp only [State.afterPins, State.onBlock_port]
  cases s.port.pinsNext <;> rfl

/-- The draw of the transport's answer neither reads nor writes the block. -/
theorem State.afterTx_onBlock (s : State) (f : Block → Block) : (s.onBlock f).afterTx = s.afterTx.onBlock f := by
  simp only [State.afterTx, State.onBlock_port]
  cases s.port.txNext <;> rfl

theorem transmitLocal_sampleAxis (a : Axis) : TransmitLocal (sampleAxis a) where
  rx s t h := by obtain ⟨-, rfl⟩ | ⟨-, rfl⟩ := sampleAxis_cases h <;> rfl
  ctrl s t h := by obtain ⟨-, rfl⟩ | ⟨-, rfl⟩ := sampleAxis_cases h <;> rfl
  now s t h := by obtain ⟨-, rfl⟩ | ⟨-, rfl⟩ := sampleAxis_cases h <;> rfl
  independent rx fmt ledInit s t h := by
    obtain ⟨⟨buf, hch⟩, rfl⟩ | ⟨hch, rfl⟩ := sampleAxis_cases h <;>
      simp only [sampleAxis, State.onBlock_block, Block.withReceiveSide, hch] <;> rfl

theorem transmitLocal_execSample (arg : BitVec 8) : TransmitLocal (execSample arg) := by
  cases harg : axisOfArg arg with
  | none =>
    have heq : execSample arg = fun s => .next (s.raise .cmdIllegal) := by funext s; simp only [execSample, harg]
    exact heq ▸ TransmitLocal.raised _
  | some a =>
    have heq : execSample arg = whenEnabled (sampleAxis a) := by funext s; simp only [execSample, harg]
    exact heq ▸ (transmitLocal_sampleAxis a).whenEnabled

theorem transmitLocal_latchPins : TransmitLocal latchPins where
  rx := by rintro s _ ⟨⟩; simp
  ctrl := by rintro s _ ⟨⟩; simp
  now := by rintro s _ ⟨⟩; simp
  independent rx fmt ledInit := by
    rintro s _ ⟨⟩
    unfold latchPins
    rw [State.afterPins_onBlock]
    rfl

theorem transmitLocal_encodeFrame : TransmitLocal encodeFrame where
  rx s t h := by obtain ⟨-, res, -, rfl⟩ | ⟨-, rfl⟩ := encodeFrame_cases h <;> simp
  ctrl s t h := by obtain ⟨-, res, -, rfl⟩ | ⟨-, rfl⟩ := encodeFrame_cases h <;> simp
  now s t h := by obtain ⟨-, res, -, rfl⟩ | ⟨-, rfl⟩ := encodeFrame_cases h <;> simp
  independent rx fmt ledInit s t h := by
    obtain ⟨hfresh, res, hres, rfl⟩ | ⟨hfresh, rfl⟩ := encodeFrame_cases h
    · simp only [encodeFrame, State.onBlock_block, Block.withReceiveSide, hfresh, hres]
      exact congrArg (fun b => Host.Outcome.next { s with block := b }) (s.block.packFrame_withReceiveSide ..)
    · simp only [encodeFrame, State.onBlock_block, Block.withReceiveSide, hfresh]
      rfl

theorem transmitLocal_sendFrame : TransmitLocal sendFrame where
  rx s t h := by obtain ⟨-, rfl⟩ | ⟨-, rfl⟩ := sendFrame_cases h <;> simp
  ctrl s t h := by obtain ⟨-, rfl⟩ | ⟨-, rfl⟩ := sendFrame_cases h <;> simp
  now s t h := by obtain ⟨-, rfl⟩ | ⟨-, rfl⟩ := sendFrame_cases h <;> simp
  independent rx fmt ledInit s t h := by
    obtain ⟨hvalid, rfl⟩ | ⟨hvalid, rfl⟩ := sendFrame_cases h
    · have hdraw := State.afterTx_onBlock (s.emit s.block.tx.txFrame) (Block.withReceiveSide rx fmt ledInit)
      calc sendFrame (s.onBlock (Block.withReceiveSide rx fmt ledInit))
        _ = .next (((s.emit s.block.tx.txFrame).onBlock (Block.withReceiveSide rx fmt ledInit)).afterTx.onBlock
              (Block.afterSend s.drawnTx)) := if_pos hvalid
        _ = .next (((s.emit s.block.tx.txFrame).afterTx.onBlock (Block.afterSend s.drawnTx)).onBlock
              (Block.withReceiveSide rx fmt ledInit)) := by
          rw [hdraw]
          exact congrArg (fun b => Host.Outcome.next { (s.emit s.block.tx.txFrame).afterTx with block := b })
            (Block.afterSend_withReceiveSide ..)
    · simp only [sendFrame, State.onBlock_block, Block.withReceiveSide, hvalid]
      rfl

/-- The commands of the transmit path are local to it. -/
theorem transmitLocal_exec {i : Instr} (h : isTransmit i = true) : TransmitLocal (exec i) := by
  cases i with
  | sample arg => exact transmitLocal_execSample arg
  | latchBtn => exact transmitLocal_latchPins.whenEnabled
  | encode => exact transmitLocal_encodeFrame.whenEnabled
  | send => exact transmitLocal_sendFrame.whenEnabled
  | _ => cases h

/-! ### The commands of the receive path -/

theorem Block.noteIf_withTransmitSide (tx : TxPath) (res : BitVec 2) (b : Block) (c : Bool) (e : ErrBit) :
    (b.withTransmitSide tx res).noteIf c e = (b.noteIf c e).withTransmitSide tx res := by
  cases c <;> rfl

/-- RX_FRAME reads CTRL.FMT, NOW and the receive path. -/
theorem Block.receive_withTransmitSide (tx : TxPath) (res : BitVec 2) (n : Nat) (b : Block) :
    (b.withTransmitSide tx res).receive n = (b.receive n).withTransmitSide tx res := by
  by_cases hlen : 8 < b.rx.rxLen.toNat
  · rw [Block.receive_of_tooLong n hlen]
    exact Block.receive_of_tooLong n hlen
  cases hacc : filterMatch b.rx.filters b.rx.rxId
  · rw [Block.receive_of_rejected n hlen hacc]
    exact Block.receive_of_rejected n hlen hacc
  cases hfmt : b.ctrl.fmt
  · rw [Block.receive_of_batch n hlen hacc hfmt, ← Block.noteIf_withTransmitSide]
    exact Block.receive_of_batch (b := b.withTransmitSide tx res) n hlen hacc hfmt
  · rw [Block.receive_of_single n hlen hacc hfmt]
    exact Block.receive_of_single n hlen hacc hfmt

theorem receiveLocal_receiveFrame : ReceiveLocal receiveFrame where
  tx := by rintro s _ ⟨⟩; simp
  ctrl := by rintro s _ ⟨⟩; simp
  now := by rintro s _ ⟨⟩; simp
  independent tx res := by
    rintro s _ ⟨⟩
    exact congrArg (fun b => Host.Outcome.next { s with block := b }) (s.block.receive_withTransmitSide ..)

theorem receiveLocal_tickLeds : ReceiveLocal tickLeds where
  tx := by rintro s _ ⟨⟩; rfl
  ctrl := by rintro s _ ⟨⟩; rfl
  now := by rintro s _ ⟨⟩; rfl
  independent _ _ := by rintro s _ ⟨⟩; rfl

/-- The commands of the receive path are local to it. -/
theorem receiveLocal_exec {i : Instr} (h : isReceive i = true) : ReceiveLocal (exec i) := by
  cases i with
  | rxFrame => exact receiveLocal_receiveFrame.whenEnabled
  | tick => exact receiveLocal_tickLeds.whenEnabled
  | _ => cases h

/-- Settles O54: every command of a path is local to it. -/
theorem transmitAndReceivePathsAreDisjoint : Obligations.TransmitAndReceivePathsAreDisjoint := by
  intro s t i h
  refine ⟨fun hi => ?_, fun hi => ?_⟩
  · obtain ⟨hrx, hctrl, hnow, hindep⟩ := transmitLocal_exec hi
    exact ⟨hrx s t h, hctrl s t h, hnow s t h, fun rx fmt ledInit => hindep rx fmt ledInit s t h⟩
  · obtain ⟨htx, hctrl, hnow, hindep⟩ := receiveLocal_exec hi
    exact ⟨htx s t h, hctrl s t h, hnow s t h, fun tx res => hindep tx res s t h⟩

end Sys2Proof.Machine

/-! ## Which input writes which data register, and which clears ERR (10_state.md R36, R38 to R41) -/

namespace Sys2Proof.Machine

/-- What most inputs leave of a block: the data registers as they were, and every ERR bit that was set. -/
structure DataKept (b b' : Block) : Prop where
  axv : b'.tx.axv = b.tx.axv
  btn : b'.tx.btn = b.tx.btn
  frameLo : b'.tx.frameLo = b.tx.frameLo
  frameHi : b'.tx.frameHi = b.tx.frameHi
  now : b'.now = b.now
  err : ∀ n, b.err.getLsbD n = true → b'.err.getLsbD n = true

section
variable (b : Block)

theorem DataKept.refl : DataKept b b := ⟨rfl, rfl, rfl, rfl, rfl, fun _ h => h⟩

theorem DataKept.raise (e : ErrBit) : DataKept b (b.raise e) :=
  ⟨rfl, rfl, rfl, rfl, rfl, fun n h => by rw [Block.raise_err, BitVec.getLsbD_or, h, Bool.true_or]⟩

theorem DataKept.noteIf (c : Bool) (e : ErrBit) : DataKept b (b.noteIf c e) := by
  cases c
  · exact .refl b
  · exact .raise b e

theorem DataKept.onRx (f : RxPath → RxPath) : DataKept b (b.onRx f) := ⟨rfl, rfl, rfl, rfl, rfl, fun _ h => h⟩

theorem DataKept.trans {b b' b'' : Block} (h : DataKept b b') (h' : DataKept b' b'') : DataKept b b'' :=
  ⟨h'.axv.trans h.axv, h'.btn.trans h.btn, h'.frameLo.trans h.frameLo, h'.frameHi.trans h.frameHi,
    h'.now.trans h.now, fun n hn => h'.err n (h.err n hn)⟩

theorem DataKept.startAcquisition (a : Axis) : DataKept b (b.onTx (TxPath.startAcquisition a)) :=
  ⟨rfl, rfl, rfl, rfl, rfl, fun _ h => h⟩

theorem DataKept.storeReadings (a : Axis) (buf : List Reading) : DataKept b (b.onTx (TxPath.storeReadings a buf)) :=
  ⟨rfl, rfl, rfl, rfl, rfl, fun _ h => h⟩

theorem DataKept.setAxc (a : Axis) (f : AxisConfig → AxisConfig) : DataKept b (b.onTx (TxPath.setAxc a f)) :=
  ⟨rfl, rfl, rfl, rfl, rfl, fun _ h => h⟩

theorem DataKept.disable : DataKept b b.disable := ⟨rfl, rfl, rfl, rfl, rfl, fun _ h => h⟩

theorem DataKept.setCtrl (c : Ctrl) : DataKept b { b with ctrl := c } := ⟨rfl, rfl, rfl, rfl, rfl, fun _ h => h⟩

theorem DataKept.enable (n : Nat) : DataKept b (b.enable n) := ⟨rfl, rfl, rfl, rfl, rfl, fun _ h => h⟩

/-- SEND spends the frame and keeps the frame registers (43_frame_packer.md R213). -/
theorem DataKept.afterSend (r : TxResult) : DataKept b (b.afterSend r) :=
  .trans (b' := b.onTx TxPath.spendFrame) ⟨rfl, rfl, rfl, rfl, rfl, fun _ h => h⟩ (.noteIf _ _ _)

theorem DataKept.receive (n : Nat) : DataKept b (b.receive n) := by
  obtain h | h | h | h := b.receive_cases n <;> rw [h]
  · exact .raise b _
  · exact .onRx b _
  · exact .onRx b _
  · exact (DataKept.onRx b _).trans (.noteIf _ _ _)

theorem DataKept.tick : DataKept b b.tick := ⟨rfl, rfl, rfl, rfl, rfl, fun _ h => h⟩

theorem DataKept.writeCtrl (build : Build) (d : Word) : DataKept b (b.writeCtrl build d) := by
  obtain ⟨-, c, h | h⟩ | ⟨-, b', rfl, h | ⟨-, h⟩ | h⟩ := writeCtrl_cases build d b <;> rw [h]
  · exact .noteIf b _ _
  · exact (DataKept.noteIf b _ _).trans (.disable _)
  · exact .setCtrl b _
  · exact (DataKept.setCtrl b _).trans (.enable _ _)
  · exact (DataKept.setCtrl b _).trans (.raise _ _)

/-- Of the registers a write stores, ERR alone loses set bits. -/
theorem DataKept.writeReg (build : Build) {r : Reg} (hr : r ≠ .err) (d : Word) : DataKept b (b.writeReg build r d) := by
  obtain ⟨-, h⟩ | ⟨he, -⟩ | ⟨c, h⟩ | ⟨-, a, f, h⟩ | ⟨-, i, f, h⟩ | ⟨rx, h, -, -⟩ := b.writeReg_cases build r d
  · exact h ▸ .writeCtrl b build d
  · exact absurd he hr
  · exact h ▸ .noteIf b _ _
  · exact h ▸ .setAxc b a f
  · exact h ▸ .onRx b _
  · exact h ▸ .onRx b fun _ => rx

end

/-! ### The commands and the accesses -/

/-- A command that keeps the data registers when it runs keeps them when it is issued. -/
theorem whenEnabled_dataKept {m : State → Result} (hm : ∀ s t, m s = .next t → DataKept s.block t.block) {s t : State}
    (h : whenEnabled m s = .next t) : DataKept s.block t.block := by
  obtain ⟨-, h⟩ | ⟨-, rfl⟩ := whenEnabled_next h
  · exact hm s t h
  · exact .raise _ _

theorem execSample_dataKept {arg : BitVec 8} {s t : State} (h : execSample arg s = .next t) :
    DataKept s.block t.block := by
  unfold execSample at h
  split at h
  · cases h; exact .raise _ _
  · refine whenEnabled_dataKept (fun s t h => ?_) h
    obtain ⟨-, rfl⟩ | ⟨-, rfl⟩ := sampleAxis_cases h
    · exact .raise _ _
    · exact .startAcquisition _ _

theorem execSend_dataKept {s t : State} (h : execSend s = .next t) : DataKept s.block t.block := by
  refine whenEnabled_dataKept (fun s t h => ?_) h
  obtain ⟨-, rfl⟩ | ⟨-, rfl⟩ := sendFrame_cases h
  · simpa using DataKept.afterSend s.block s.drawnTx
  · exact .raise _ _

theorem execRxFrame_dataKept {s t : State} (h : execRxFrame s = .next t) : DataKept s.block t.block :=
  whenEnabled_dataKept (by rintro s _ ⟨⟩; exact .receive _ _) h

theorem execTick_dataKept {s t : State} (h : execTick s = .next t) : DataKept s.block t.block :=
  whenEnabled_dataKept (by rintro s _ ⟨⟩; exact .tick s.block) h

theorem execRd_dataKept {addr : Addr} {s t : State} (h : execRd addr s = .next t) : DataKept s.block t.block := by
  unfold execRd at h
  split at h <;> cases h
  · exact .raise _ _
  · exact .refl _

/-- LATCH_BTN writes BTN, or raises CMD_DISABLED. -/
theorem execLatchBtn_data {s t : State} (h : execLatchBtn s = .next t) :
    DataKept s.block t.block ∨ ∃ v, t.block = s.block.onTx (TxPath.latch v) := by
  obtain ⟨-, h⟩ | ⟨-, rfl⟩ := whenEnabled_next h
  · cases h; exact .inr ⟨pressed s.build.nButtons s.drawnPins, by simp⟩
  · exact .inl (.raise _ _)

/-- ENCODE packs a frame, or raises an error. -/
theorem execEncode_data {s t : State} (h : execEncode s = .next t) :
    DataKept s.block t.block ∨ ∃ res, t.block = s.block.packFrame s.build.roundTies res := by
  obtain ⟨-, h⟩ | ⟨-, rfl⟩ := whenEnabled_next h
  · obtain ⟨-, res, -, rfl⟩ | ⟨-, rfl⟩ := encodeFrame_cases h
    · exact .inr ⟨res, rfl⟩
    · exact .inl (.raise _ _)
  · exact .inl (.raise _ _)

/-- A command word is its instruction's own (30_encoding.md R105, R106). -/
theorem encode_of_decodeCommand {w : BitVec 32} {i : Instr} (h : decodeCommand w = .ok i) :
    Sys2Proof.encode i = .command w := by
  unfold decodeCommand at h
  split at h
  · cases h
  have hw : commandWord (argField w) (opField w) = w := commandWord_of_fields (not_not.1 ‹_›)
  dsimp only at h
  split_ifs at h with hop _ harg hop hop hop hop hop hop hop <;> cases h
  · rw [hop] at hw
    exact congrArg Encoded.command hw
  all_goals
    rw [hop, not_not.1 harg] at hw
    exact congrArg Encoded.command hw

/-- The transaction a word decodes to is its own: bit 44, the address and the data are the whole word
(30_encoding.md R103). -/
theorem decodeTransaction_cases {w : BitVec 45} {i : Instr} (h : decodeTransaction w = .ok i) :
    (∃ addr, i = .rd addr) ∨ ∃ addr d, i = .wr addr d ∧ w = transactionWord true addr d := by
  unfold decodeTransaction at h
  split at h <;> rename_i hw
  · cases h
    exact .inr ⟨_, _, rfl, by rw [← hw, transactionWord_of_fields]⟩
  · split at h <;> cases h
    exact .inl ⟨_, rfl⟩

/-- An access that reaches a register is at the register's offset. -/
theorem busCheck_sound {op : BusOp} {build : Build} {addr : Addr} {r : Reg} (h : busCheck op build addr = some r) :
    addr.toNat = r.offset := by
  unfold busCheck at h
  split at h
  · cases h
  · split at h <;> cases h
    exact (regAt_sound ‹_›).2

/-- What one input does to the data registers and to ERR, and which input does it. -/
inductive DataStep (build : Build) (b : Block) : Input → Block → Prop where
  | kept {i : Input} {b' : Block} (h : DataKept b b') : DataStep build b i b'
  | completed {a : Axis} {v : BitVec 16} (buf : List Reading) (value : BitVec 16) (hch : b.tx.ch.get a = .acq buf)
      (hlen : buf.length + 1 = (b.tx.axc.get a).window.toNat) :
      DataStep build b (.adc a v) (b.onTx (TxPath.complete a value))
  | latched (v : BitVec 8) : DataStep build b (cmdInput 0x00000002#32) (b.onTx (TxPath.latch v))
  | packed (res : Resolution) : DataStep build b (cmdInput 0x00000003#32) (b.packFrame build.roundTies res)
  | strobed : DataStep build b .msStrobe { b with now := b.now + 1 }
  | cleared (d : Word) : DataStep build b (.access (transactionWord true 0x008#12 d)) (b.clearErrors d)
  | reset {i : Input} (h : IsResetInput i) : DataStep build b i (Block.reset build)

theorem issueCmd_dataStep {w : Word} {s t : State} (h : issueCmd w s = .next t) :
    DataStep s.build s.block (cmdInput w) t.block := by
  have hword (i : Instr) (v : Word) (hi : decodeCommand w = .ok i) (hv : Sys2Proof.encode i = .command v) : w = v :=
    Encoded.command.inj ((encode_of_decodeCommand hi).symm.trans hv)
  unfold issueCmd at h
  split at h <;> rename_i hdec
  · cases h; exact .kept (.raise _ _)
  · cases h; exact .kept (.refl _)
  · exact .kept (execSample_dataKept h)
  · obtain rfl := hword _ 0x00000002#32 hdec rfl
    obtain hk | ⟨v, hv⟩ := execLatchBtn_data h
    · exact .kept hk
    · exact hv ▸ .latched v
  · obtain rfl := hword _ 0x00000003#32 hdec rfl
    obtain hk | ⟨res, hres⟩ := execEncode_data h
    · exact .kept hk
    · exact hres ▸ .packed res
  · exact .kept (execSend_dataKept h)
  · exact .kept (execRxFrame_dataKept h)
  · exact .kept (execTick_dataKept h)
  · obtain rfl := hword _ 0x000000FF#32 hdec rfl
    cases h
    exact .reset (.inr rfl)
  · cases h; exact .kept (.raise _ _)
  · cases h; exact .kept (.raise _ _)

theorem execWr_dataStep {addr : Addr} {d : Word} {s t : State} (h : execWr addr d s = .next t) :
    DataStep s.build s.block (.access (transactionWord true addr d)) t.block := by
  unfold execWr at h
  split at h <;> rename_i hbus
  · cases h; exact .kept (.raise _ _)
  · obtain rfl : addr = cmdOffset := BitVec.eq_of_toNat_eq (busCheck_sound hbus)
    exact issueCmd_dataStep h
  · rename_i r _
    cases h
    by_cases hr : r = .err
    · subst hr
      obtain rfl : addr = 0x008#12 := BitVec.eq_of_toNat_eq (busCheck_sound hbus)
      exact .cleared d
    · exact .kept (.writeReg _ _ hr d)

theorem adcEvent_dataStep {a : Axis} {v : BitVec 16} {s t : State} (h : adcEvent a v s = .next t) :
    DataStep s.build s.block (.adc a v) t.block := by
  obtain ⟨-, rfl⟩ | ⟨buf, hch, ⟨-, rfl⟩ | ⟨hlen, value, -, rfl⟩⟩ := adcEvent_cases h
  · exact .kept (.refl _)
  · exact .kept (.storeReadings _ _ _)
  · exact .completed buf value hch (by simpa [TxPath.nextBuf] using hlen)

theorem takeInput_dataStep {i : Input} {s t : State} (h : takeInput i s = .next t) :
    DataStep s.build s.block i t.block := by
  cases i with
  | access w =>
    unfold takeInput at h
    dsimp only at h
    split at h
    · obtain ⟨addr, rfl⟩ | ⟨addr, d, rfl, rfl⟩ := decodeTransaction_cases ‹_›
      · exact .kept (execRd_dataKept h)
      · exact execWr_dataStep h
    · cases h
  | adc a v => exact adcEvent_dataStep h
  | msStrobe => cases h; exact .strobed
  | rst => cases h; exact .reset (.inl rfl)
  | pins b => cases h; exact .kept (.refl _)
  | txAnswer r => cases h; exact .kept (.refl _)

/-- A step that takes an input does to the data registers and to ERR what that input does. -/
theorem step_dataStep {s t : State} {i : Input} {rest : List Input} (hi : s.port.inputs = i :: rest)
    (h : step s = .next t) : DataStep s.build s.block i t.block :=
  takeInput_dataStep (s := s.setInputs rest) ((step_of_inputs hi).symm.trans h)

/-- Settles O56: of the ways an input can write ERR, only the W1C write and a reset clear a bit. -/
theorem errBitsAreSticky : Obligations.ErrBitsAreSticky := by
  intro s t n h hset hclear
  cases hin : s.port.inputs with
  | nil =>
    obtain ⟨-, rfl⟩ | ⟨i, rest, hi, -⟩ := step_cases h
    · simp [hset] at hclear
    · simp [hin] at hi
  | cons i rest =>
    refine ⟨i, rest, rfl, ?_⟩
    have hstep := step_dataStep hin h
    generalize t.block = b' at hstep hclear
    cases hstep with
    | kept hk => simp [hk.err n hset] at hclear
    | cleared d =>
      refine .inr ⟨d, ?_, rfl⟩
      have hn : n < 11 := BitVec.lt_of_getLsbD hset
      simpa [hset, hn, show n < 32 by omega] using hclear
    | reset hi => exact .inl hi
    | packed res =>
      rw [Block.packFrame_err, BitVec.getLsbD_or, hset, Bool.true_or] at hclear
      cases hclear
    | _ => exact absurd (hset.symm.trans hclear) (by decide)

/-- Settles O58: of the inputs that are no reset, a completing reading, LATCH_BTN, ENCODE and the strobe each write
their own register, and every other keeps all of them. -/
theorem dataRegistersHaveOneWriter : Obligations.DataRegistersHaveOneWriter := by
  intro s t i rest hin h hreset
  have hstep := step_dataStep hin h
  generalize t.block = b' at hstep ⊢
  cases hstep with
  | kept hk => simp [hk.axv, hk.btn, hk.frameLo, hk.frameHi, hk.now]
  | @completed a v buf value hch hlen =>
    refine ⟨fun a' hne => ?_, by simp, by simp, by simp⟩
    obtain rfl : a' = a := by
      by_contra ha
      exact hne (by simp [PerAxis.get_set_of_ne _ _ ha])
    exact ⟨v, buf, rfl, hch, hlen, by simp⟩
  | latched v => simp
  | packed res => simp
  | strobed => simp
  | cleared d => simp
  | reset hi => exact absurd hi hreset

end Sys2Proof.Machine

/-! ## The configuration is locked while CTRL.EN = 1 (20_memory.md R88) -/

namespace Sys2Proof.Machine

/-- CTRL, the axis configuration and the filter table are as they were. -/
structure ConfigKept (b b' : Block) : Prop where
  ctrl : b'.ctrl = b.ctrl
  axc : b'.tx.axc = b.tx.axc
  filters : b'.rx.filters = b.rx.filters

/-- While enabled, a write of CTRL that does not disable can only raise CFG_LOCKED (40_host_bus.md R136). -/
theorem ConfigKept.writeCtrl {build : Build} {d : Word} {b : Block} (hen : b.ctrl.en = true)
    (hen' : (b.writeCtrl build d).ctrl.en = true) : ConfigKept b (b.writeCtrl build d) := by
  obtain ⟨-, c, h | h⟩ | ⟨hdis, -⟩ := writeCtrl_cases build d b
  · rw [h]
    exact ⟨by simp, by simp, by simp⟩
  · simp [h] at hen'
  · simp [hen] at hdis

/-- While enabled, the configuration registers are locked and no other register but CTRL holds configuration
(40_host_bus.md R137). -/
theorem ConfigKept.writeReg {build : Build} {r : Reg} {d : Word} {b : Block} (hen : b.ctrl.en = true)
    (hen' : (b.writeReg build r d).ctrl.en = true) : ConfigKept b (b.writeReg build r d) := by
  obtain ⟨-, h⟩ | ⟨-, h⟩ | ⟨c, h⟩ | ⟨hdis, -⟩ | ⟨hdis, -⟩ | ⟨rx, h, hfilters, -⟩ := b.writeReg_cases build r d
  · rw [h] at hen' ⊢
    exact .writeCtrl hen hen'
  · exact h ▸ ⟨rfl, rfl, rfl⟩
  · rw [h]
    exact ⟨by simp, by simp, by simp⟩
  · simp [hen] at hdis
  · simp [hen] at hdis
  · exact h ▸ ⟨rfl, rfl, hfilters⟩

/-- Of the ways the block can change, only a register write and a reset write configuration, and a reset disables. -/
theorem BlockStep.configKept {build : Build} {b b' : Block} (h : BlockStep build b b') (hen : b.ctrl.en = true)
    (hen' : b'.ctrl.en = true) : ConfigKept b b' := by
  cases h with
  | packed res _ _ _ => exact ⟨by simp, by simp, by simp⟩
  | sent r _ _ => exact ⟨by simp, by simp, by simp⟩
  | received _ => exact ⟨by simp, by simp, by simp⟩
  | wrote r d => exact .writeReg hen hen'
  | reset => cases hen'
  | _ => exact ⟨rfl, rfl, rfl⟩

/-- Settles O53: each of the ways a step changes the block keeps the configuration, or disables. -/
theorem configurationIsLockedWhileEnabled : Obligations.ConfigurationIsLockedWhileEnabled := by
  intro s t hstep hen hen'
  obtain ⟨hctrl, haxc, hfilters⟩ := (step_blockStep hstep).2.configKept hen hen'
  exact ⟨hctrl, haxc, hfilters⟩

end Sys2Proof.Machine

/-! ## The address map and the accesses it refuses (20_memory.md R72, R79 to R81) -/

namespace Sys2Proof.Machine

/-- The filter table's entries stand 0x10 apart from 0x080 (10_state.md R50). -/
theorem regAtOffset_filter {b : Build} {f k : Nat} (hwf : b.wf) (hf : f < b.nFilters) (hk : k < 4) :
    regAtOffset b (0x080 + 0x10 * f + 4 * k) = (filterRegs f)[k]? := by
  obtain ⟨-, -, ⟨-, hmax⟩, -⟩ := hwf
  have hslot : (0x080 + 0x10 * f + 4 * k - 0x080) / 0x10 = f := by omega
  have hlane : (0x080 + 0x10 * f + 4 * k - 0x080) % 0x10 / 4 = k := by omega
  unfold regAtOffset
  rw [if_neg (by omega), if_neg (by omega), if_neg (by omega), if_neg (by omega), if_neg (by omega),
    if_pos (by omega), hslot, hlane, if_pos hf]

/-- The LED state table's entries stand 8 apart from 0x100 (10_state.md R51). -/
theorem regAtOffset_led {b : Build} {i k : Nat} (hwf : b.wf) (hi : i < b.nLeds) (hk : k < 2) :
    regAtOffset b (0x100 + 8 * i + 4 * k) = (ledRegs i)[k]? := by
  obtain ⟨-, ⟨-, hmax⟩, -, -⟩ := hwf
  have hslot : (0x100 + 8 * i + 4 * k - 0x100) / 8 = i := by omega
  have hlane : (0x100 + 8 * i + 4 * k - 0x100) % 8 / 4 = k := by omega
  unfold regAtOffset
  rw [if_neg (by omega), if_neg (by omega), if_neg (by omega), if_neg (by omega), if_neg (by omega),
    if_neg (by omega), if_pos (by omega), hslot, hlane, if_pos hi]

/-- A register's offset names it, in every build that has it. -/
theorem regAtOffset_complete {b : Build} {r : Reg} (hwf : b.wf) (h : r.inBuild b) : regAtOffset b r.offset = some r := by
  cases r with
  | fltAddr f => exact regAtOffset_filter (k := 0) hwf h (by decide)
  | fltMask f => simpa [Reg.offset, filterRegs, Nat.add_right_comm] using regAtOffset_filter (k := 1) hwf h (by decide)
  | fltCtl f => simpa [Reg.offset, filterRegs, Nat.add_right_comm] using regAtOffset_filter (k := 2) hwf h (by decide)
  | ledState i => exact regAtOffset_led (k := 0) hwf h (by decide)
  | ledLt i => simpa [Reg.offset, ledRegs, Nat.add_right_comm] using regAtOffset_led (k := 1) hwf h (by decide)
  | axv a | axcCenterDz a | axcWindow a | axcRank a | axcFlags a => cases a <;> rfl
  | _ => rfl

/-- An address names a register exactly when the build has it and the address is its offset. -/
theorem regAt_eq_some_iff {b : Build} {addr : Addr} {r : Reg} (hwf : b.wf) :
    regAt b addr = some r ↔ r.inBuild b ∧ addr.toNat = r.offset := by
  refine ⟨regAt_sound, fun ⟨hin, haddr⟩ => ?_⟩
  rw [regAt, haddr]
  exact regAtOffset_complete hwf hin

/-- An offset in one of the holes 20_memory.md R72 lists, the last above the whole map. -/
def IsHole (n : Nat) : Prop :=
  n = 0x03C ∨ (0x060 ≤ n ∧ n ≤ 0x07F) ∨ (∃ f, f < 8 ∧ n = 0x08C + 0x10 * f) ∨ 0x180 ≤ n

theorem not_isHole_offset {b : Build} {r : Reg} (hwf : b.wf) (h : r.inBuild b) : ¬ IsHole r.offset := by
  obtain ⟨-, ⟨-, hleds⟩, ⟨-, hfilters⟩, -⟩ := hwf
  intro hhole
  cases r with
  | fltAddr f | fltMask f | fltCtl f | ledState f | ledLt f =>
    simp only [Reg.inBuild] at h
    simp only [IsHole, Reg.offset] at hhole
    omega
  | axv a | axcCenterDz a | axcWindow a | axcRank a | axcFlags a =>
    cases a <;> simp only [IsHole, Reg.offset, Axis.index] at hhole <;> omega
  | _ =>
    simp only [IsHole, Reg.offset] at hhole
    omega

/-- Settles O12: offsets and access codes register by register; the map is sound and complete, and no register's offset
is in a hole. -/
theorem addressMap : Obligations.AddressMap := by
  refine ⟨fun r => ?_, fun b hwf => ⟨fun addr r => regAt_eq_some_iff hwf, fun addr hhole => ?_⟩⟩
  · cases r with
    | axv a | axcCenterDz a | axcWindow a | axcRank a | axcFlags a => cases a <;> rfl
    | _ => rfl
  · refine Option.eq_none_iff_forall_ne_some.2 fun r hr => ?_
    obtain ⟨hin, haddr⟩ := regAt_sound hr
    exact not_isHole_offset hwf hin (haddr ▸ hhole)

/-! ### Refused accesses -/

/-- Every register is word-aligned (20_memory.md R79). -/
theorem Reg.offset_mod_four (r : Reg) : r.offset % 4 = 0 := by
  cases r <;> simp only [Reg.offset] <;> omega

/-- A misaligned address names no register, nor does one that is the offset of none. -/
theorem regAt_eq_none {b : Build} {addr : Addr}
    (h : addr.toNat % 4 ≠ 0 ∨ ∀ r : Reg, r.inBuild b → r.offset ≠ addr.toNat) : regAt b addr = none := by
  refine Option.eq_none_iff_forall_ne_some.2 fun r hr => ?_
  obtain ⟨hin, haddr⟩ := regAt_sound hr
  obtain hmis | hunmapped := h
  · exact hmis (haddr ▸ r.offset_mod_four)
  · exact hunmapped r hin haddr.symm

theorem busCheck_of_unmapped {b : Build} {addr : Addr} (op : BusOp) (h : regAt b addr = none) :
    busCheck op b addr = none := by
  rw [busCheck, h]

/-- A read reaches every mapped register. -/
theorem busCheck_rd {b : Build} {addr : Addr} {r : Reg} (h : regAt b addr = some r) : busCheck .rd b addr = some r := by
  simp [busCheck, h]

theorem busCheck_wr_of_readOnly {b : Build} {addr : Addr} {r : Reg} (h : regAt b addr = some r) (hro : r.access = .ro) :
    busCheck .wr b addr = none := by
  simp [busCheck, h, hro]

theorem execRd_of_refused {s : State} {addr : Addr} (h : busCheck .rd s.build addr = none) :
    execRd addr s = .next ((s.raise .busErr).returnData 0) := by
  rw [execRd, h]

theorem execRd_of_mapped {s : State} {addr : Addr} {r : Reg} (h : regAt s.build addr = some r) :
    execRd addr s = .next (s.returnData (s.block.image r)) := by
  rw [execRd, busCheck_rd h]

theorem execWr_of_refused {s : State} {addr : Addr} (d : Word) (h : busCheck .wr s.build addr = none) :
    execWr addr d s = .next (s.raise .busErr) := by
  rw [execWr, h]

/-- Settles O13: such an address names no register, and a write to a read-only register is refused by its access code. -/
theorem refusedAccessOnlySetsBusErr : Obligations.RefusedAccessOnlySetsBusErr := by
  refine fun s addr => ⟨fun h => ⟨?_, fun d => ?_⟩, fun r d hr hro => ?_, ?_⟩
  · exact execRd_of_refused (busCheck_of_unmapped .rd (regAt_eq_none h))
  · exact execWr_of_refused d (busCheck_of_unmapped .wr (regAt_eq_none h))
  · exact execWr_of_refused d (busCheck_wr_of_readOnly hr hro)
  · exact execRd_of_mapped (s := s) (addr := 0x00C#12) (r := .cmd) rfl

/-- Settles O14: a read only records the word it returns, so the second read finds the same block. -/
theorem readReturnsTheImageAndChangesNothing : Obligations.ReadReturnsTheImageAndChangesNothing :=
  fun s _ r hr => ⟨s.returnData (s.block.image r), execRd_of_mapped hr, rfl, execRd_of_mapped hr⟩

end Sys2Proof.Machine

/-! ## The steps of a host access and the outputs of a step (20_memory.md R74, R75, R85) -/

namespace Sys2Proof.Machine

theorem takeInput_access {w : BitVec 45} {i : Instr} (s : State) (h : decodeTransaction w = .ok i) :
    takeInput (.access w) s = exec i s := by
  simp only [takeInput, h]

/-- Settles O7. -/
theorem stepRunsTheDecodedAccess : Obligations.StepRunsTheDecodedAccess := by
  intro s w rest i hin hdec
  rw [step_of_inputs hin]
  exact takeInput_access (s.setInputs rest) hdec

/-- The calls range over the build's indicators and are those whose bit of led_out the step changes. -/
theorem mem_indicatorCalls {s t : State} {i : Nat} {v : Bool} : (i, v) ∈ indicatorCalls s t ↔
    i < s.build.nLeds ∧ (ledPort s).getLsbD i ≠ v ∧ (ledPort t).getLsbD i = v := by
  simp only [indicatorCalls, List.mem_filterMap, List.mem_range]
  constructor
  · rintro ⟨j, hj, hcall⟩
    split at hcall <;> cases hcall
    exact ⟨hj, Ne.symm ‹_›, rfl⟩
  · rintro ⟨hi, hne, rfl⟩
    exact ⟨i, hi, if_neg hne.symm⟩

/-- Settles O47: led_out always carries LED_OUT. -/
theorem indicatorCallsAreTheChangedOutputs : Obligations.IndicatorCallsAreTheChangedOutputs :=
  fun _ _ _ _ _ => mem_indicatorCalls

/-! ### Only SEND hands a frame to the transport -/

/-- A command word that is not SEND's sends nothing. -/
theorem issueCmd_sent {w : Word} {s t : State} (h : issueCmd w s = .next t) (hw : w ≠ 0x00000004#32) :
    t.port.sent = s.port.sent := by
  unfold issueCmd at h
  split at h <;> rename_i hdec
  · cases h; rfl
  · cases h; rfl
  · rw [(execSample_next h).1]
  · exact (execLatchBtn_next h).1
  · rw [(execEncode_next h).1]
  · exact absurd (Encoded.command.inj (encode_of_decodeCommand hdec)).symm hw
  · rw [(execRxFrame_next h).1]
  · rw [(execTick_next h).1]
  · cases h; rfl
  · cases h; rfl
  · cases h; rfl

theorem execWr_sent {addr : Addr} {d : Word} {s t : State} (h : execWr addr d s = .next t)
    (hne : Input.access (transactionWord true addr d) ≠ cmdInput 0x00000004#32) : t.port.sent = s.port.sent := by
  unfold execWr at h
  split at h <;> rename_i hbus
  · cases h; rfl
  · obtain rfl : addr = cmdOffset := BitVec.eq_of_toNat_eq (busCheck_sound hbus)
    exact issueCmd_sent h (by rintro rfl; exact hne rfl)
  · cases h; rfl

theorem execRd_sent {addr : Addr} {s t : State} (h : execRd addr s = .next t) : t.port.sent = s.port.sent := by
  unfold execRd at h
  split at h <;> cases h <;> rfl

/-- An input that is not the SEND command sends nothing. -/
theorem takeInput_sent {i : Input} {s t : State} (h : takeInput i s = .next t) (hne : i ≠ cmdInput 0x00000004#32) :
    t.port.sent = s.port.sent := by
  cases i with
  | access w =>
    unfold takeInput at h
    dsimp only at h
    split at h
    · obtain ⟨addr, rfl⟩ | ⟨addr, d, rfl, rfl⟩ := decodeTransaction_cases ‹_›
      · exact execRd_sent h
      · exact execWr_sent h hne
    · cases h
  | adc a v => rw [(adcEvent_effect h).1]
  | _ => cases h; rfl

/-- Settles O59: a step sends nothing or the frame of the frame registers, and nothing unless its input is SEND's. -/
theorem onlySendEmits : Obligations.OnlySendEmits := by
  intro s t hstep
  obtain hkept | ⟨-, hsent⟩ := step_sent hstep
  · exact .inl hkept
  obtain ⟨-, rfl⟩ | ⟨i, rest, hin, h⟩ := step_cases hstep
  · exact .inl rfl
  by_cases hi : i = cmdInput 0x00000004#32
  · exact .inr ⟨⟨rest, hi ▸ hin⟩, hsent⟩
  · exact .inl (takeInput_sent (s := s.setInputs rest) h hi)

end Sys2Proof.Machine

/-! ## The words of the two formats (30_encoding.md R102 to R108) -/

namespace Sys2Proof.Machine

/-! The fields of a word as numbers -/

theorem opField_toNat (w : BitVec 32) : (opField w).toNat = w.toNat % 256 := by
  simp [opField]

theorem argField_toNat (w : BitVec 32) : (argField w).toNat = w.toNat / 256 % 256 := by
  simp [argField, Nat.shiftRight_eq_div_pow]

theorem rsvField_toNat (w : BitVec 32) : (rsvField w).toNat = w.toNat / 65536 := by
  have hw := w.isLt
  simp only [rsvField, BitVec.extractLsb'_toNat, Nat.shiftRight_eq_div_pow]
  omega

theorem writeBit_eq_decide (w : BitVec 45) : writeBit w = decide (2 ^ 44 ≤ w.toNat) :=
  BitVec.msb_eq_decide w

theorem addrField_eq_ofNat (w : BitVec 45) : addrField w = BitVec.ofNat 12 (w.toNat / 2 ^ 32) := by
  simp [addrField, BitVec.extractLsb', Nat.shiftRight_eq_div_pow]

theorem dataField_eq_ofNat (w : BitVec 45) : dataField w = BitVec.ofNat 32 w.toNat := by
  simp [dataField, BitVec.extractLsb']

theorem dataField_eq_zero_iff (w : BitVec 45) : dataField w = 0 ↔ w.toNat % 2 ^ 32 = 0 := by
  rw [dataField_eq_ofNat, ← BitVec.toNat_inj]
  rfl

/-- A word with the value 256 * ARG + OP is the command word of those fields. -/
theorem eq_commandWord_iff {w : BitVec 32} {arg op : BitVec 8} :
    w = commandWord arg op ↔ w.toNat = 256 * arg.toNat + op.toNat := by
  rw [← BitVec.toNat_inj, commandWord_toNat]

/-! The command decoder -/

/-- The SAMPLE words, of which only ARG 0 and 1 are legal (30_encoding.md R104, R107). -/
theorem decodeCommand_sampleWord (arg : BitVec 8) : decodeCommand (commandWord arg 0x01#8) =
    if arg.toNat ≤ 1 then .ok (.sample arg) else .error .illegalCommand := by
  simp [decodeCommand]

/-- The illegal words by their fields (30_encoding.md R108). -/
theorem decodeCommand_eq_error_iff (w : BitVec 32) : decodeCommand w = .error .illegalCommand ↔
    (7 ≤ (opField w).toNat ∧ (opField w).toNat ≤ 0xFE) ∨ (rsvField w).toNat ≠ 0 ∨
      ((opField w).toNat = 1 ∧ 1 < (argField w).toNat) ∨ ((opField w).toNat ≠ 1 ∧ (argField w).toNat ≠ 0) := by
  have hop := (opField w).isLt
  simp only [decodeCommand, ite_eq_iff, reduceCtorEq, and_true, and_false, false_or, ne_eq, BitVec.ofNat_eq_ofNat,
    ← BitVec.toNat_inj, BitVec.toNat_ofNat]
  omega

/-- A command word decodes only to a legal SAMPLE or to a command without operand (30_encoding.md R104). -/
theorem wellFormed_of_decodeCommand {w : BitVec 32} {i : Instr} (h : decodeCommand w = .ok i) :
    WellFormed i = true := by
  have hw := encode_of_decodeCommand h
  cases i with
  | sample arg =>
    obtain rfl : commandWord arg 0x01#8 = w := Encoded.command.inj hw
    rw [decodeCommand_sampleWord] at h
    split at h
    · exact decide_eq_true ‹_›
    · cases h
  | _ => rfl

/-! The transaction decoder -/

theorem decodeTransaction_of_write {w : BitVec 45} (h : writeBit w = true) :
    decodeTransaction w = .ok (.wr (addrField w) (dataField w)) := if_pos h

theorem decodeTransaction_of_read {w : BitVec 45} (h : writeBit w = false) (hd : dataField w = 0) :
    decodeTransaction w = .ok (.rd (addrField w)) := by
  rw [decodeTransaction, if_neg (Bool.not_eq_true _ ▸ h), if_pos hd]

theorem decodeTransaction_of_readWithData {w : BitVec 45} (h : writeBit w = false) (hd : dataField w ≠ 0) :
    decodeTransaction w = .error .readWithData := by
  rw [decodeTransaction, if_neg (Bool.not_eq_true _ ▸ h), if_neg hd]

/-- The word of WR's fields is that WR (30_encoding.md R103). -/
theorem decodeTransaction_writeWord (addr : Addr) (d : Word) :
    decodeTransaction (transactionWord true addr d) = .ok (.wr addr d) := by
  rw [decodeTransaction_of_write (writeBit_transactionWord ..), addrField_transactionWord, dataField_transactionWord]

/-- The word of RD's fields, with DATA = 0, is that RD (30_encoding.md R103). -/
theorem decodeTransaction_readWord (addr : Addr) :
    decodeTransaction (transactionWord false addr 0) = .ok (.rd addr) := by
  rw [decodeTransaction_of_read (writeBit_transactionWord ..) (dataField_transactionWord ..), addrField_transactionWord]

/-- A transaction word is its instruction's own. -/
theorem encode_of_decodeTransaction {w : BitVec 45} {i : Instr} (h : decodeTransaction w = .ok i) :
    Sys2Proof.encode i = .transaction w := by
  have hw := transactionWord_of_fields w
  cases hwr : writeBit w with
  | true =>
    cases (decodeTransaction_of_write hwr).symm.trans h
    rw [hwr] at hw
    exact congrArg Encoded.transaction hw
  | false =>
    by_cases hd : dataField w = 0
    · cases (decodeTransaction_of_read hwr hd).symm.trans h
      rw [hwr, hd] at hw
      exact congrArg Encoded.transaction hw
    · cases (decodeTransaction_of_readWithData hwr hd).symm.trans h

/-- A transaction word decodes to no SAMPLE. -/
theorem wellFormed_of_decodeTransaction {w : BitVec 45} {i : Instr} (h : decodeTransaction w = .ok i) :
    WellFormed i = true := by
  obtain ⟨addr, rfl⟩ | ⟨addr, d, rfl, -⟩ := decodeTransaction_cases h <;> rfl

/-- A transaction word that encodes no transaction is refused for that one reason. -/
theorem decodeTransaction_error {w : BitVec 45} {r : Rejection} (h : decodeTransaction w = .error r) :
    r = .readWithData := by
  unfold decodeTransaction at h
  split at h
  · cases h
  · split at h <;> cases h
    rfl

/-! Decode and encode are inverse on the well-formed instructions -/

/-- Settles O1: each row's own word has the row's fields, which the decoder tests. -/
theorem decodeOfEncodeIsTheInstruction : Obligations.DecodeOfEncodeIsTheInstruction := by
  intro i hwf
  cases i with
  | rd addr => exact decodeTransaction_readWord addr
  | wr addr d => exact decodeTransaction_writeWord addr d
  | sample arg => exact (decodeCommand_sampleWord arg).trans (if_pos (of_decide_eq_true hwf))
  | _ => rfl

/-- Settles O2: format by format. -/
theorem encodeOfDecodeIsTheWord : Obligations.EncodeOfDecodeIsTheWord := by
  intro e i h
  cases e with
  | command w => exact ⟨encode_of_decodeCommand h, wellFormed_of_decodeCommand h⟩
  | transaction w => exact ⟨encode_of_decodeTransaction h, wellFormed_of_decodeTransaction h⟩

/-- A command word decodes to a well-formed instruction exactly when it is that instruction's own word. -/
theorem decodeCommand_eq_ok_iff {w v : BitVec 32} {i : Instr} (hv : Sys2Proof.encode i = .command v)
    (hwf : WellFormed i = true) : decodeCommand w = .ok i ↔ w = v := by
  constructor
  · intro h
    exact Encoded.command.inj ((encode_of_decodeCommand h).symm.trans hv)
  · rintro rfl
    simpa only [hv, decode] using decodeOfEncodeIsTheInstruction i hwf

/-! R107's masked match -/

/-- Masking ARG out leaves OP and RSV. -/
theorem opField_and_sampleMask (w : BitVec 32) : opField (w &&& 0xFFFF00FF#32) = opField w := by
  rw [opField, BitVec.extractLsb'_and]
  exact BitVec.and_allOnes

theorem argField_and_sampleMask (w : BitVec 32) : argField (w &&& 0xFFFF00FF#32) = 0 := by
  rw [argField, BitVec.extractLsb'_and]
  exact BitVec.and_zero

theorem rsvField_and_sampleMask (w : BitVec 32) : rsvField (w &&& 0xFFFF00FF#32) = rsvField w := by
  rw [rsvField, BitVec.extractLsb'_and]
  exact BitVec.and_allOnes

/-- The words of R107's pattern are the SAMPLE words. -/
theorem and_sampleMask_eq_iff {w : BitVec 32} :
    w &&& 0xFFFF00FF#32 = 0x00000001#32 ↔ ∃ arg, w = commandWord arg 0x01#8 := by
  constructor
  · intro h
    have hop : opField w = 0x01#8 := by rw [← opField_and_sampleMask, h]; rfl
    have hrsv : rsvField w = 0 := by rw [← rsvField_and_sampleMask, h]; rfl
    exact ⟨argField w, by rw [← hop, commandWord_of_fields hrsv]⟩
  · rintro ⟨arg, rfl⟩
    have hrsv := rsvField_and_sampleMask (commandWord arg 0x01#8)
    rw [rsvField_commandWord] at hrsv
    rw [← commandWord_of_fields hrsv, argField_and_sampleMask, opField_and_sampleMask, opField_commandWord]
    rfl

/-- Settles O3: the pattern is SAMPLE's fields, and every other command has the one word its encoding gives. -/
theorem legalCommandWords : Obligations.LegalCommandWords := by
  refine ⟨fun w => ?_, fun w arg hw => ?_, fun w => ?_, fun w => ?_, fun w => ?_, fun w => ?_, fun w => ?_,
    fun w => ?_, fun w => ?_⟩
  · exact and_sampleMask_eq_iff.trans (exists_congr fun arg => eq_commandWord_iff)
  · obtain rfl : w = commandWord arg 0x01#8 := eq_commandWord_iff.2 hw
    exact decodeCommand_sampleWord arg
  all_goals exact decodeCommand_eq_ok_iff rfl rfl

/-! ## What a word does when it is issued or delivered -/

/-- An illegal command word raises CMD_ILLEGAL and does nothing else (40_host_bus.md R133). -/
theorem issueCmd_of_error {w : Word} {r : Rejection} (s : State) (h : decodeCommand w = .error r) :
    issueCmd w s = .next (s.raise .cmdIllegal) := by
  rw [issueCmd, h]

/-- An instruction a command word decodes to is a command (30_encoding.md R106). -/
theorem isCommand_of_decodeCommand {w : BitVec 32} {i : Instr} (h : decodeCommand w = .ok i) : i.isCommand = true := by
  have hw := encode_of_decodeCommand h
  cases i with
  | rd addr => cases hw
  | wr addr d => cases hw
  | _ => rfl

/-- A legal command word is its instruction (40_host_bus.md R133). -/
theorem issueCmd_of_ok {w : Word} {i : Instr} (s : State) (h : decodeCommand w = .ok i) : issueCmd w s = exec i s := by
  have hi := isCommand_of_decodeCommand h
  rw [issueCmd, h]
  cases i with
  | rd addr => cases hi
  | wr addr d => cases hi
  | _ => rfl

/-- Settles O4: the fields of the word as numbers, and a write to CMD issues the word. -/
theorem illegalCommandWordsOnlyRaiseCmdIllegal : Obligations.IllegalCommandWordsOnlyRaiseCmdIllegal := by
  intro w op arg illegal
  have hiff : decodeCommand w = .error .illegalCommand ↔ illegal := by
    simpa only [opField_toNat, argField_toNat, rsvField_toNat] using decodeCommand_eq_error_iff w
  exact ⟨hiff, fun hill s => issueCmd_of_error s (hiff.2 hill)⟩

/-- A host access that encodes no transaction never reaches the block (93_implementation_defined.md I14). -/
theorem takeInput_of_rejected {w : BitVec 45} {r : Rejection} (s : State) (h : decodeTransaction w = .error r) :
    takeInput (.access w) s = .refused .notATransaction := by
  simp only [takeInput, h]

/-- Settles O5: the write bit and the data field decide the three cases. -/
theorem transactionWordFields : Obligations.TransactionWordFields := by
  intro w addr data
  have haddr : addrField w = addr := addrField_eq_ofNat w
  have hdata : dataField w = data := dataField_eq_ofNat w
  have hread (h : w.toNat < 2 ^ 44) : writeBit w = false := by simpa [writeBit_eq_decide] using h
  refine ⟨fun h => ?_, fun h hd => ?_, fun h hd => ?_⟩
  · rw [decodeTransaction_of_write (by simpa [writeBit_eq_decide] using h), haddr, hdata]
  · rw [decodeTransaction_of_read (hread h) ((dataField_eq_zero_iff w).2 hd), haddr]
  · have hdec := decodeTransaction_of_readWithData (hread h) (mt (dataField_eq_zero_iff w).1 hd)
    exact ⟨hdec, fun s rest hin => by rw [step_of_inputs hin, takeInput_of_rejected _ hdec]⟩

/-- Settles O6: the decoder evaluated on each word. -/
theorem specWordsDecode : Obligations.SpecWordsDecode := by
  unfold Obligations.SpecWordsDecode
  decide

/-- The access made for a written form runs the instruction it decodes to (30_encoding.md R101, 40_host_bus.md R133). -/
theorem takeInput_accessWord {e : Encoded} {i : Instr} (s : State) (h : decode e = .ok i) :
    takeInput (.access (accessWord e)) s = exec i s := by
  cases e with
  | transaction w => exact takeInput_access s h
  | command w =>
    calc takeInput (.access (transactionWord true cmdOffset w)) s
      _ = execWr cmdOffset w s := takeInput_access s (decodeTransaction_writeWord cmdOffset w)
      _ = issueCmd w s := execWr_cmd w s
      _ = exec i s := issueCmd_of_ok s h

theorem decode_of_decodeTableWord {nbits w : Nat} {i : Instr} (h : decodeTableWord nbits w = some i) :
    decode (encodedOfTable nbits w) = .ok i := by
  obtain ⟨-, h⟩ := Option.ite_none_right_eq_some.1 h
  cases hdec : decode (encodedOfTable nbits w) with
  | error r => rw [hdec] at h; cases h
  | ok j => rw [hdec] at h; cases h; rfl

/-- Settles O8: the host's access is the one the word is made for, and it is the next input. -/
theorem fetchedTableWordRuns : Obligations.FetchedTableWordRuns := by
  intro s nbits w i h
  rw [step_of_inputs (s := s.withFetchWord nbits w) rfl]
  exact takeInput_accessWord s (decode_of_decodeTableWord h)

end Sys2Proof.Machine

/-! ## No step from the invariant faults -/

namespace Sys2Proof.Machine

/-- A command answers a next state if it does so while enabled. -/
theorem whenEnabled_answers {m : State → Result} {s : State} (h : s.block.ctrl.en = true → ∃ t, m s = .next t) :
    ∃ t, whenEnabled m s = .next t := by
  cases hen : s.block.ctrl.en with
  | true => rw [whenEnabled_of_en hen]; exact h hen
  | false => exact ⟨_, whenEnabled_of_not_en hen⟩

theorem execSample_answers (arg : BitVec 8) (s : State) : ∃ t, execSample arg s = .next t := by
  unfold execSample
  split
  · exact ⟨_, rfl⟩
  · refine whenEnabled_answers fun _ => ?_
    unfold sampleAxis
    split <;> exact ⟨_, rfl⟩

theorem execSend_answers (s : State) : ∃ t, execSend s = .next t := by
  refine whenEnabled_answers fun _ => ?_
  unfold sendFrame
  split <;> exact ⟨_, rfl⟩

/-- RES = 3 alone is no resolution (43_frame_packer.md R204). -/
theorem resOf_isSome {res : BitVec 2} (h : res ≠ 3) : ∃ r, resOf res = some r := by
  refine Option.ne_none_iff_exists'.1 ?_
  revert res
  decide

section
variable {s : State} (h : s.Inv)
include h

/-- While enabled the configuration has been validated, so RES = 3 is not in force. -/
theorem execEncode_answers : ∃ t, execEncode s = .next t := by
  refine whenEnabled_answers fun hen => ?_
  obtain ⟨-, hres⟩ := (configValid_iff _ _).1 (h.enabled hen)
  obtain ⟨r, hr⟩ := resOf_isSome hres
  unfold encodeFrame
  split
  · exact ⟨_, by rw [hr]⟩
  · exact ⟨_, rfl⟩

/-- While an axis acquires the block is enabled, so RANK is below WINDOW and the selection is defined. -/
theorem adcEvent_answers (a : Axis) (v : BitVec 16) : ∃ t, adcEvent a v s = .next t := by
  unfold adcEvent
  split
  · exact ⟨_, rfl⟩
  · rename_i buf hch
    dsimp only
    split
    · rename_i hlen
      obtain ⟨hvalid, -⟩ := (configValid_iff _ _).1 (h.enabled (h.en_of_acq hch))
      obtain ⟨-, -, hrank⟩ := hvalid a
      obtain ⟨value, hvalue⟩ := resolve_isSome (hlen ▸ hrank)
      exact ⟨_, by rw [hvalue]⟩
    · exact ⟨_, rfl⟩

theorem exec_answers_of_isCommand {i : Instr} (hi : i.isCommand = true) : ∃ t, exec i s = .next t := by
  cases i with
  | rd addr => cases hi
  | wr addr d => cases hi
  | nop => exact ⟨_, rfl⟩
  | sample arg => exact execSample_answers arg s
  | latchBtn => exact whenEnabled_answers fun _ => ⟨_, rfl⟩
  | encode => exact execEncode_answers h
  | send => exact execSend_answers s
  | rxFrame => exact whenEnabled_answers fun _ => ⟨_, rfl⟩
  | tick => exact whenEnabled_answers fun _ => ⟨_, rfl⟩
  | softReset => exact ⟨_, rfl⟩

theorem issueCmd_answers (w : Word) : ∃ t, issueCmd w s = .next t := by
  cases hdec : decodeCommand w with
  | error r => exact ⟨_, issueCmd_of_error s hdec⟩
  | ok i =>
    rw [issueCmd_of_ok s hdec]
    exact exec_answers_of_isCommand h (isCommand_of_decodeCommand hdec)

/-- Every instruction has a defined outcome. -/
theorem exec_answers (i : Instr) : ∃ t, exec i s = .next t := by
  cases i with
  | rd addr =>
    rw [exec_rd, execRd]
    split <;> exact ⟨_, rfl⟩
  | wr addr d =>
    rw [exec_wr, execWr]
    split
    · exact ⟨_, rfl⟩
    · exact issueCmd_answers h d
    · exact ⟨_, rfl⟩
  | _ => exact exec_answers_of_isCommand h rfl

/-- An input is answered by a next state, or it is a word that encodes no transaction. -/
theorem takeInput_answers (i : Input) : (∃ t, takeInput i s = .next t) ∨
    ∃ w, i = .access w ∧ decodeTransaction w = .error .readWithData := by
  cases i with
  | access w =>
    cases hdec : decodeTransaction w with
    | ok instr => exact .inl (by rw [takeInput_access s hdec]; exact exec_answers h instr)
    | error r => exact .inr ⟨w, rfl, by rw [hdec, decodeTransaction_error hdec]⟩
  | adc a v => exact .inl (adcEvent_answers h a v)
  | _ => exact .inl ⟨_, rfl⟩

/-- The invariant speaks of no port. -/
theorem State.Inv.setInputs (l : List Input) : (s.setInputs l).Inv := h.of_frame rfl rfl rfl

end

/-- Settles O52: a step waits or takes an input, and the one input without a next state is refused. -/
theorem noStepFaults : Obligations.NoStepFaults := by
  intro s h
  cases hin : s.port.inputs with
  | nil =>
    have hstep : step s = .next s := by rw [step, takeNext, hin]
    simp [NoFault, hstep]
  | cons i rest =>
    rw [step_of_inputs hin]
    obtain ⟨t, ht⟩ | ⟨w, rfl, hdec⟩ := takeInput_answers (h.setInputs rest) i
    · simp [NoFault, ht]
    · rw [takeInput_of_rejected _ hdec]
      exact ⟨fun _ => nofun, fun _ _ => ⟨w, rest, rfl, hdec⟩⟩

end Sys2Proof.Machine

/-! ## Writes to the host registers (40_host_bus.md R133 to R140) -/

namespace Sys2Proof.Machine

/-! CMD -/

/-- A legal ARG names an axis (30_encoding.md R104). -/
theorem exists_axisOfArg {arg : BitVec 8} (h : arg.toNat ≤ 1) : ∃ a, axisOfArg arg = some a := by
  obtain h0 | h1 : arg.toNat = 0 ∨ arg.toNat = 1 := by omega
  · exact ⟨.x, axisOfArg_of_index h0⟩
  · exact ⟨.y, axisOfArg_of_index h1⟩

/-- While disabled, a legal command other than NOP and SOFT_RESET only raises CMD_DISABLED (40_host_bus.md R133). -/
theorem exec_of_disabled {i : Instr} {s : State} (hcmd : i.isCommand = true) (hwf : WellFormed i = true)
    (hnop : i ≠ .nop) (hreset : i ≠ .softReset) (hen : s.block.ctrl.en = false) :
    exec i s = .next (s.raise .cmdDisabled) := by
  cases i with
  | rd addr => cases hcmd
  | wr addr d => cases hcmd
  | nop => exact absurd rfl hnop
  | softReset => exact absurd rfl hreset
  | sample arg =>
    obtain ⟨a, ha⟩ := exists_axisOfArg (of_decide_eq_true hwf)
    rw [exec_sample, execSample, ha]
    exact whenEnabled_of_not_en hen
  | _ => exact whenEnabled_of_not_en hen

/-- Settles O9: a write to CMD issues its word, which is its instruction or illegal. -/
theorem cmdWriteIssuesTheCommand : Obligations.CmdWriteIssuesTheCommand := by
  refine fun s w => ⟨fun i hdec => ?_, fun r hdec => ?_, fun i hdec hnop hreset hen => ?_⟩
  · exact issueCmd_of_ok s hdec
  · exact issueCmd_of_error s hdec
  · exact (issueCmd_of_ok s hdec).trans
      (exec_of_disabled (isCommand_of_decodeCommand hdec) (wellFormed_of_decodeCommand hdec) hnop hreset hen)

/-! The configuration registers -/

/-- A noted event writes ERR alone (00_scope.md R18). -/
theorem Block.noteIf_eq (b : Block) (c : Bool) (e : ErrBit) :
    b.noteIf c e = { b with err := b.err ||| (if c then BitVec.twoPow 11 e.index else 0) } := by
  cases c
  · simp [Block.noteIf]
  · rfl

theorem Block.writeRwl_of_en {r : Reg} {d : Word} {b : Block} (h : b.ctrl.en = true) :
    b.writeRwl r d = b.noteIf (decide (d &&& r.storedBits ≠ b.image r)) .cfgLocked := if_pos h

theorem Block.writeRwl_of_not_en {r : Reg} {d : Word} {b : Block} (h : b.ctrl.en = false) :
    b.writeRwl r d = b.storeConfig r (d &&& r.storedBits) := if_neg (Bool.not_eq_true _ ▸ h)

/-- A store to a configuration register touches neither channel. -/
theorem Block.storeConfig_ch (r : Reg) (d : Word) (b : Block) : (b.storeConfig r d).tx.ch = b.tx.ch := by
  obtain ⟨a, f, h⟩ | ⟨i, f, h⟩ | h := b.storeConfig_cases r d <;> rw [h] <;> rfl

/-- Replacing axis `a`'s configuration changes the image of none but `a`'s four registers. -/
theorem Block.image_onTx_setAxc (b : Block) {a : Axis} (f : AxisConfig → AxisConfig) {r : Reg} (hr : r ∉ axisRegs a) :
    (b.onTx (TxPath.setAxc a f)).image r = b.image r := by
  cases r with
  | axcCenterDz a' | axcWindow a' | axcRank a' | axcFlags a' =>
    have ha : a' ≠ a := by rintro rfl; simp [axisRegs] at hr
    simp [Block.image, PerAxis.get_set_of_ne _ _ ha]
  | _ => rfl

/-- Replacing filter entry `i` changes the image of none but the entry's three registers. -/
theorem Block.image_onRx_setFilter (b : Block) {i : Nat} (f : CanFilter → CanFilter) {r : Reg} (hr : r ∉ filterRegs i) :
    (b.onRx (RxPath.setFilter i f)).image r = b.image r := by
  cases r with
  | fltAddr j | fltMask j | fltCtl j =>
    have hj : i ≠ j := by rintro rfl; simp [filterRegs] at hr
    simp [Block.image, hj]
  | _ => rfl

@[simp] theorem CanFilter.ctlImage_withAddress (e : CanFilter) (w : Word) :
    { e with address := w }.ctlImage = e.ctlImage := rfl
@[simp] theorem CanFilter.ctlImage_withMask (e : CanFilter) (w : Word) :
    { e with mask := w }.ctlImage = e.ctlImage := rfl

/-- A store to a configuration register changes no other register's image: the other registers of its axis or filter
entry show other fields. -/
theorem Block.image_storeConfig_of_ne {r r' : Reg} (b : Block) (d : Word) (hne : r' ≠ r) :
    (b.storeConfig r d).image r' = b.image r' := by
  cases r with
  | axcCenterDz a | axcWindow a | axcRank a | axcFlags a =>
    by_cases hr : r' ∈ axisRegs a
    · simp only [axisRegs, List.mem_cons, List.not_mem_nil, or_false] at hr
      obtain rfl | rfl | rfl | rfl := hr <;> simp [Block.storeConfig, Block.image] at hne ⊢
    · exact b.image_onTx_setAxc _ hr
  | fltAddr i | fltMask i | fltCtl i =>
    by_cases hr : r' ∈ filterRegs i
    · simp only [filterRegs, List.mem_cons, List.not_mem_nil, or_false] at hr
      obtain rfl | rfl | rfl := hr <;> simp [Block.storeConfig, Block.image, Function.comp_def] at hne ⊢
    · exact b.image_onRx_setFilter _ hr
  | _ => rfl

/-- The two half words of a word, side by side, are the word (10_state.md R46). -/
theorem halves_or_eq (d : Word) :
    ((d.extractLsb' 16 16).setWidth 32 <<< 16) ||| (d.extractLsb' 0 16).setWidth 32 = d := by
  apply BitVec.eq_of_toNat_eq
  have hd := d.isLt
  simp only [shiftLeft_or_toNat, BitVec.extractLsb'_toNat, Nat.shiftRight_eq_div_pow]
  omega

/-- A mask of one bit leaves that bit's flag. -/
theorem and_twoPow_eq_flagAt (d : Word) (k : Nat) : d &&& BitVec.twoPow 32 k = flagAt k (d.getLsbD k) :=
  BitVec.and_twoPow d k

/-- AXC_FLAGS stores the one flag its image shows (10_state.md R49). -/
theorem flagAt_zero_eq (d : Word) : flagAt 0 (d.getLsbD 0) = d &&& 0x00000001#32 :=
  (and_twoPow_eq_flagAt d 0).symm

/-- FLT_CTL stores the two flags its image shows (10_state.md R50). -/
theorem flagAt_zero_or_one_eq (d : Word) : flagAt 0 (d.getLsbD 0) ||| flagAt 1 (d.getLsbD 1) = d &&& 0x00000003#32 := by
  rw [← and_twoPow_eq_flagAt, ← and_twoPow_eq_flagAt, ← BitVec.and_or_distrib_left]
  rfl

/-- A configuration register reads back the bits stored in it. -/
theorem Block.image_storeConfig_same {r : Reg} {build : Build} {b : Block} (d : Word) (hr : r.access = .rwl)
    (hlen : b.rx.filters.length = build.nFilters) (hin : r.inBuild build) :
    (b.storeConfig r (d &&& r.storedBits)).image r = d &&& r.storedBits := by
  cases r with
  | axcCenterDz a =>
    simp only [Block.storeConfig, Block.image, Block.onTx_tx, TxPath.setAxc_axc, PerAxis.get_set_same]
    exact halves_or_eq _
  | axcWindow a | axcRank a => simp [Block.storeConfig, Block.image]
  | axcFlags a =>
    simp [Block.storeConfig, Block.image, Reg.storedBits, flagAt_zero_eq, -BitVec.getLsbD_eq_getElem]
  | fltAddr i | fltMask i =>
    have hi : i < b.rx.filters.length := hlen ▸ hin
    simp [Block.storeConfig, Block.image, hi]
  | fltCtl i =>
    have hi : i < b.rx.filters.length := hlen ▸ hin
    simp [Block.storeConfig, Block.image, Reg.storedBits, CanFilter.ctlImage, hi, flagAt_zero_or_one_eq,
      -BitVec.getLsbD_eq_getElem]
  | _ => cases hr

/-- Settles O17: while disabled the register reads back what is stored and no other reads differently; while enabled
the write is compared and noted. -/
theorem configurationWrite : Obligations.ConfigurationWrite := by
  refine ⟨fun r => by cases r <;> rfl, fun s addr r d hlen hreg hr => ?_⟩
  obtain ⟨hin, -⟩ := regAt_sound hreg
  rw [exec_wr, execWr_rwl hreg hr]
  constructor
  · intro hen
    have hstore := Block.writeRwl_of_not_en (r := r) (d := d) hen
    refine ⟨_, rfl, ?_, fun r' hne => ?_, ?_, rfl, rfl⟩ <;> rw [State.onBlock_block, hstore]
    · exact Block.image_storeConfig_same d hr hlen hin
    · exact s.block.image_storeConfig_of_ne _ hne
    · exact s.block.storeConfig_ch r _
  · intro hen
    rw [State.onBlock, Block.writeRwl_of_en hen, Block.noteIf_eq]
    simp only [decide_eq_true_eq]
    rfl

/-! The RX registers and ERR -/

/-- A write to a data register: CTRL alone of the RW registers has a rule of its own (40_host_bus.md R132). -/
theorem execWr_rw {s : State} {addr : Addr} {r : Reg} {d : Word} (h : regAt s.build addr = some r)
    (hr : r.access = .rw) (hctrl : r ≠ .ctrl) : execWr addr d s = .next (s.onBlock (Block.writeData r d)) := by
  rw [execWr_of_regAt h (by rw [hr]; decide) (by rintro rfl; cases hr)]
  cases r with
  | ctrl => exact absurd rfl hctrl
  | rxId | rxLen | rxDataLo | rxDataHi => rfl
  | _ => cases hr

/-- Settles O18: each of the four offsets names its register. -/
theorem dataWritesOnlyStore : Obligations.DataWritesOnlyStore := by
  refine fun s d => ⟨?_, ?_, ?_, ?_⟩
  · exact execWr_rw (addr := 0x028#12) (r := .rxId) rfl rfl (by decide)
  · exact execWr_rw (addr := 0x02C#12) (r := .rxLen) rfl rfl (by decide)
  · exact execWr_rw (addr := 0x030#12) (r := .rxDataLo) rfl rfl (by decide)
  · exact execWr_rw (addr := 0x034#12) (r := .rxDataHi) rfl rfl (by decide)

/-- Settles O19: ERR is masked by the complement of the written bits. -/
theorem errWriteClearsTheBitsWritten : Obligations.ErrWriteClearsTheBitsWritten := by
  refine fun s d => ⟨(s.block.clearErrors d).err, fun n hn => ?_, execWr_err d s⟩
  simp [hn, -BitVec.getLsbD_eq_getElem]

/-! CTRL -/

/-- The fields a CTRL write is compared with while enabled, one by one (40_host_bus.md R136). -/
theorem Ctrl.config_ofWord_ne_iff (d : Word) (c : Ctrl) : (Ctrl.ofWord d).config ≠ c.config ↔
    d.getLsbD 1 ≠ c.fmt ∨ d.extractLsb' 2 2 ≠ c.res ∨ d.getLsbD 4 ≠ c.ledInit := by
  simp only [Ctrl.config, Ctrl.ofWord, ne_eq, Prod.mk.injEq, not_and_or]

/-- A CTRL write while enabled that keeps EN = 1. -/
theorem Block.writeCtrl_of_en {build : Build} {d : Word} {b : Block} (hen : b.ctrl.en = true)
    (hd : d.getLsbD 0 = true) :
    b.writeCtrl build d = b.noteIf (decide ((Ctrl.ofWord d).config ≠ b.ctrl.config)) .cfgLocked := by
  rw [Block.writeCtrl, if_pos hen]
  exact if_pos hd

/-- A CTRL write while enabled that disables the block. -/
theorem Block.writeCtrl_of_disabling {build : Build} {d : Word} {b : Block} (hen : b.ctrl.en = true)
    (hd : d.getLsbD 0 = false) :
    b.writeCtrl build d = (b.noteIf (decide ((Ctrl.ofWord d).config ≠ b.ctrl.config)) .cfgLocked).disable := by
  rw [Block.writeCtrl, if_pos hen]
  exact if_neg (Bool.not_eq_true _ ▸ hd)

/-- Settles O20: the locked fields are compared and noted, and with EN = 0 the block is disabled. -/
theorem ctrlWriteWhileEnabled : Obligations.CtrlWriteWhileEnabled := by
  intro s d hen err
  have hnote : s.block.noteIf (decide ((Ctrl.ofWord d).config ≠ s.block.ctrl.config)) .cfgLocked =
      { s.block with err := err } := by
    rw [Block.noteIf_eq]
    simp only [decide_eq_true_eq, Ctrl.config_ofWord_ne_iff]
    rfl
  refine ⟨fun hd => ?_, fun hd => ?_⟩ <;> rw [exec_wr, execWr_ctrl, State.onBlock]
  · rw [Block.writeCtrl_of_en hen hd, hnote]
  · rw [Block.writeCtrl_of_disabling hen hd, hnote]
    rfl

/-- CTRL's fields written while disabled, EN still 0 (40_host_bus.md R136). -/
def Block.withFields (d : Word) (b : Block) : Block := { b with ctrl := { Ctrl.ofWord d with en := false } }

/-- A CTRL write while disabled that leaves EN = 0. -/
theorem Block.writeCtrl_of_not_en {build : Build} {d : Word} {b : Block} (hen : b.ctrl.en = false)
    (hd : d.getLsbD 0 = false) : b.writeCtrl build d = b.withFields d := by
  rw [Block.writeCtrl, if_neg (Bool.not_eq_true _ ▸ hen)]
  exact if_neg (Bool.not_eq_true _ ▸ hd)

/-- A CTRL write that asks for an enable validates the configuration with the new fields. -/
theorem Block.writeCtrl_of_enabling {build : Build} {d : Word} {b : Block} (hen : b.ctrl.en = false)
    (hd : d.getLsbD 0 = true) : b.writeCtrl build d =
      if (b.withFields d).configValid build.windowMax then (b.withFields d).enable build.nLeds
      else (b.withFields d).raise .cfgInvalid := by
  rw [Block.writeCtrl, if_neg (Bool.not_eq_true _ ▸ hen)]
  exact if_pos hd

/-- Settles O21: the fields are written, and an enable is decided by ConfigValid() over them. -/
theorem ctrlWriteWhileDisabled : Obligations.CtrlWriteWhileDisabled := by
  intro s d hen fields led valid
  have hvalid : (s.block.withFields d).configValid s.build.windowMax = true ↔ valid := configValid_iff _ _
  refine ⟨fun hd => ?_, fun hd hv => ?_, fun hd hv => ?_⟩ <;> rw [exec_wr, execWr_ctrl, State.onBlock]
  · rw [Block.writeCtrl_of_not_en hen hd]
    rfl
  · rw [Block.writeCtrl_of_enabling hen hd, if_pos (hvalid.2 hv)]
    rfl
  · rw [Block.writeCtrl_of_enabling hen hd, if_neg (mt hvalid.1 hv)]
    rfl

end Sys2Proof.Machine

/-! ## The axis sampler (41_axis_sampler.md) -/

namespace Sys2Proof.Machine

/-! SAMPLE -/

/-- SAMPLE past the check of CTRL.EN on an idle channel (R161). -/
theorem sampleAxis_of_idle {a : Axis} {s : State} (h : s.block.tx.ch.get a = .idle) :
    sampleAxis a s = .next (s.onBlock (Block.onTx (TxPath.startAcquisition a))) := by
  rw [sampleAxis, h]

/-- SAMPLE past the check of CTRL.EN on an acquiring channel (R161). -/
theorem sampleAxis_of_acquiring {a : Axis} {s : State} (h : s.block.tx.ch.get a ≠ .idle) :
    sampleAxis a s = .next (s.raise .overrun) := by
  cases hch : s.block.tx.ch.get a with
  | idle => exact absurd hch h
  | acq buf => rw [sampleAxis, hch]

/-- SAMPLE with a legal ARG is the command of the axis it names (30_encoding.md R104). -/
theorem execSample_of_index {arg : BitVec 8} {a : Axis} (h : arg.toNat = a.index) (s : State) :
    execSample arg s = whenEnabled (sampleAxis a) s := by
  rw [execSample, axisOfArg_of_index h]

theorem execSample_of_gt {arg : BitVec 8} (h : 1 < arg.toNat) (s : State) :
    execSample arg s = .next (s.raise .cmdIllegal) := by
  rw [execSample, axisOfArg_of_gt h]

/-- Settles O22: ARG names an axis or none, CTRL.EN is checked, and the channel is idle or acquiring. -/
theorem sampleStartsAnAcquisition : Obligations.SampleStartsAnAcquisition := by
  refine ⟨rfl, rfl, fun s arg => ⟨fun harg => execSample_of_gt harg s, fun a harg => ?_⟩⟩
  rw [exec_sample, execSample_of_index harg]
  refine ⟨fun hen => ?_, fun hen hidle => ?_, fun hen hacq => ?_⟩
  · exact whenEnabled_of_not_en hen
  · exact (whenEnabled_of_en hen).trans (sampleAxis_of_idle hidle)
  · exact (whenEnabled_of_en hen).trans (sampleAxis_of_acquiring hacq)

/-! One reading -/

theorem adcEvent_of_idle {a : Axis} {s : State} (v : BitVec 16) (h : s.block.tx.ch.get a = .idle) :
    adcEvent a v s = .next s := by
  rw [adcEvent, h]

/-- A reading on an acquiring channel, short of the window or filling it (R163, R168). -/
theorem adcEvent_of_acq {a : Axis} {s : State} {buf : List Reading} (v : BitVec 16)
    (h : s.block.tx.ch.get a = .acq buf) : adcEvent a v s =
      if buf.length + 1 = (s.block.tx.axc.get a).window.toNat then
        (resolve (s.block.tx.axc.get a) (s.block.tx.nextBuf a buf v)).elim (.fault .selectionUndefined)
          fun value => .next (s.onBlock (Block.onTx (TxPath.complete a value)))
      else .next (s.onBlock (Block.onTx (TxPath.storeReadings a (s.block.tx.nextBuf a buf v)))) := by
  have hlen : (s.block.tx.nextBuf a buf v).length = buf.length + 1 := by simp [TxPath.nextBuf]
  simp only [adcEvent, h, hlen]
  cases resolve (s.block.tx.axc.get a) (s.block.tx.nextBuf a buf v) <;> rfl

/-- Settles O23: the step is the reading's event, and the channel is idle or acquiring. -/
theorem adcReadingIsStoredOrCompletes : Obligations.AdcReadingIsStoredOrCompletes := by
  intro s a v rest hin
  have hstep : step s = adcEvent a v (s.setInputs rest) := step_of_inputs hin
  refine ⟨transform (s.block.tx.axc.get a).inverted v, transform_toNat _ v, fun hidle => ?_,
    fun buf hacq => ⟨fun hlen => ?_, fun hlen hrank => ?_⟩⟩
  · exact hstep.trans (adcEvent_of_idle v hidle)
  · rw [hstep, adcEvent_of_acq (s := s.setInputs rest) v hacq]
    exact if_neg hlen
  · obtain ⟨value, hvalue⟩ : ∃ value, resolve (s.block.tx.axc.get a) (s.block.tx.nextBuf a buf v) = some value :=
      resolve_isSome (by simpa [TxPath.nextBuf, hlen] using hrank)
    refine ⟨value, hvalue, ?_⟩
    rw [hstep, adcEvent_of_acq (s := s.setInputs rest) v hacq, State.setInputs_block, if_pos hlen, hvalue]
    rfl

/-! Selection -/

/-- A sorted arrangement of the readings is the sort of them: equal numbers are equal readings (R164, R169). -/
theorem sortAsc_eq_of_sorted {l l' : List Reading} (hperm : l.Perm l')
    (hsorted : l'.Pairwise fun a b => a.toNat ≤ b.toNat) : sortAsc l = l' :=
  ((sortAsc_perm l).trans hperm).eq_of_pairwise (fun _ _ _ _ hab hba => BitVec.eq_of_toNat_eq (Nat.le_antisymm hab hba))
    (sortAsc_sorted l) hsorted

theorem sortAsc_congr {l l' : List Reading} (h : l.Perm l') : sortAsc l = sortAsc l' :=
  sortAsc_eq_of_sorted (h.trans (sortAsc_perm l').symm) (sortAsc_sorted l')

theorem select_perm {buf buf' : List Reading} (rank : Word) (h : buf.Perm buf') : select rank buf = select rank buf' := by
  rw [select, select, sortAsc_congr h]

theorem exists_select_iff (rank : Word) (buf : List Reading) :
    (∃ sel, select rank buf = some sel) ↔ rank.toNat < buf.length := by
  simp [select, ← Option.isSome_iff_exists]

/-- In a sorted list, the readings below an element all stand before it, and it and all before it are not above it. -/
theorem countP_of_sorted {l₁ l₂ : List Reading} {x : Reading}
    (h : (l₁ ++ x :: l₂).Pairwise fun a b => a.toNat ≤ b.toNat) :
    (l₁ ++ x :: l₂).countP (fun r => decide (r.toNat < x.toNat)) ≤ l₁.length ∧
      l₁.length < (l₁ ++ x :: l₂).countP (fun r => decide (r.toNat ≤ x.toNat)) := by
  obtain ⟨-, htail, hcross⟩ := List.pairwise_append.1 h
  have hbefore : l₁.countP (fun r => decide (r.toNat ≤ x.toNat)) = l₁.length :=
    List.countP_eq_length.2 fun r hr => by simpa using hcross r hr x (by simp)
  have hafter : l₂.countP (fun r => decide (r.toNat < x.toNat)) = 0 :=
    List.countP_eq_zero.2 fun r hr => by simpa using List.rel_of_pairwise_cons htail hr
  have hle := l₁.countP_le_length (p := fun r => decide (r.toNat < x.toNat))
  simp [List.countP_append, hbefore, hafter, hle]

/-- Settles O25: the counts are those of the sorted readings, whatever their order. -/
theorem selectionIsTheOrderStatistic : Obligations.SelectionIsTheOrderStatistic := by
  refine fun rank buf => ⟨(exists_select_iff rank buf).symm, fun sel hsel => ?_⟩
  have hperm := sortAsc_perm buf
  have hmem : sel ∈ buf := hperm.mem_iff.1 (List.mem_of_getElem? hsel)
  obtain ⟨hk, hget⟩ := List.getElem?_eq_some_iff.1 hsel
  have hsplit : (sortAsc buf).take rank.toNat ++ sel :: (sortAsc buf).drop (rank.toNat + 1) = sortAsc buf := by
    rw [← hget, List.getElem_cons_drop, List.take_append_drop]
  have hcount := countP_of_sorted (hsplit.symm ▸ sortAsc_sorted buf)
  rw [hsplit, hperm.countP_eq, hperm.countP_eq, List.length_take_of_le (Nat.le_of_lt hk)] at hcount
  exact ⟨hmem, hcount.1, hcount.2, fun buf' h => select_perm rank h ▸ hsel⟩

/-! Inversion -/

/-- 65536 minus a reading (R162). -/
def invert (x : Reading) : Reading := BitVec.ofNat 17 (65536 - x.toNat)

theorem invert_toNat (x : Reading) : (invert x).toNat = 65536 - x.toNat := by
  rw [invert, BitVec.toNat_ofNat, Nat.mod_eq_of_lt (by omega)]

theorem transform_true (v : BitVec 16) : transform true v = invert (transform false v) :=
  BitVec.eq_of_toNat_eq (by rw [invert_toNat, transform_toNat, transform_toNat]; rfl)

/-- Inverting reverses the order, so the sort of the inverted readings is the sorted readings inverted and reversed. -/
theorem sortAsc_map_invert (l : List Reading) : sortAsc (l.map invert) = ((sortAsc l).map invert).reverse := by
  refine sortAsc_eq_of_sorted (((sortAsc_perm l).symm.map invert).trans (List.reverse_perm _).symm) ?_
  rw [List.pairwise_reverse, List.pairwise_map]
  refine (sortAsc_sorted l).imp fun hab => ?_
  rw [invert_toNat, invert_toNat]
  exact Nat.sub_le_sub_left hab _

/-- Settles O26: rank K of the reversed list is rank W-1-K of the list. -/
theorem inversionMirrorsTheRank : Obligations.InversionMirrorsTheRank := by
  intro raws k hk
  set readings := raws.map (transform false) with hreadings
  have hinv : raws.map (transform true) = readings.map invert := by simp [hreadings, transform_true]
  have hlen : (sortAsc readings).length = raws.length := by simp [hreadings]
  obtain ⟨b, hb⟩ : ∃ b, (sortAsc readings)[raws.length - 1 - k]? = some b :=
    ⟨_, List.getElem?_eq_getElem (by omega)⟩
  refine ⟨invert b, b, ?_, hb, invert_toNat b⟩
  rw [hinv, sortAsc_map_invert, List.getElem?_reverse (by simpa [hlen] using hk), List.length_map, hlen,
    List.getElem?_map, hb]
  rfl

/-! Dead zone and saturation -/

/-- Strictly inside the dead zone around the center (R165). -/
def AxisConfig.InDeadZone (cfg : AxisConfig) (sel : Nat) : Prop :=
  sel < cfg.center.toNat + cfg.deadZone.toNat ∧ cfg.center.toNat < sel + cfg.deadZone.toNat

theorem AxisConfig.inDeadZone_iff (cfg : AxisConfig) (sel : Nat) :
    cfg.InDeadZone sel ↔ ((sel : Int) - (cfg.center.toNat : Int)).natAbs < cfg.deadZone.toNat := by
  unfold AxisConfig.InDeadZone; omega

theorem deadZone_of_inside {cfg : AxisConfig} {sel : Nat} (h : cfg.InDeadZone sel) :
    deadZone cfg.center cfg.deadZone sel = cfg.center.toNat := if_pos ((cfg.inDeadZone_iff sel).1 h)

theorem deadZone_of_outside {cfg : AxisConfig} {sel : Nat} (h : ¬ cfg.InDeadZone sel) :
    deadZone cfg.center cfg.deadZone sel = sel := if_neg (mt (cfg.inDeadZone_iff sel).2 h)

theorem saturate_toNat (d : Nat) : (saturate d).toNat = min d 65535 := by
  rw [saturate, BitVec.toNat_ofNat, Nat.mod_eq_of_lt (by omega)]

@[simp] theorem saturate_bitVec (v : BitVec 16) : saturate v.toNat = v :=
  BitVec.eq_of_toNat_eq (by rw [saturate_toNat]; omega)

theorem resolve_of_select {cfg : AxisConfig} {buf : List Reading} {sel : Reading} (h : select cfg.rank buf = some sel) :
    resolve cfg buf = some (saturate (deadZone cfg.center cfg.deadZone sel.toNat)) := by
  rw [resolve, h]; rfl

/-- Settles O27: the center is a 16-bit value, and of the readings saturation changes 65536 alone. -/
theorem deadZoneAndSaturation : Obligations.DeadZoneAndSaturation := by
  refine fun cfg buf sel hsel hle => ⟨_, resolve_of_select hsel, fun hin => ?_, fun hout => ?_⟩
  · rw [deadZone_of_inside hin, saturate_bitVec]
  · rw [deadZone_of_outside hout, saturate_toNat]
    split <;> omega

/-! Independence of the two channels -/

theorem PerAxis.set_comm {α : Type} {a a' : Axis} (p : PerAxis α) (v w : α) (h : a ≠ a') :
    (p.set a v).set a' w = (p.set a' w).set a v := by
  refine PerAxis.ext_get fun c => ?_
  by_cases hc : c = a'
  · subst hc
    simp [PerAxis.get_set_of_ne _ _ h.symm]
  · simp [PerAxis.get_set, hc]

/-- What a reading on an axis can change (R163, R168). -/
structure AxisData where
  axv : BitVec 16
  valid : Bool
  ch : Channel

/-- The data of axis `a`. -/
def TxPath.axisData (a : Axis) (t : TxPath) : AxisData :=
  { axv := t.axv.get a, valid := t.valid.get a, ch := t.ch.get a }

/-- The path with the data of axis `a` replaced. -/
def TxPath.withAxisData (a : Axis) (d : AxisData) (t : TxPath) : TxPath :=
  { t with axv := t.axv.set a d.axv, valid := t.valid.set a d.valid, ch := t.ch.set a d.ch }

/-- AdcEvent as a function of the axis's configuration and data, none where the selection is undefined (R163, R168). -/
def AxisData.afterReading (cfg : AxisConfig) (v : BitVec 16) (d : AxisData) : Option AxisData :=
  match d.ch with
  | .idle => some d
  | .acq buf =>
    if buf.length + 1 = cfg.window.toNat then
      (resolve cfg (buf ++ [transform cfg.inverted v])).map fun value => { axv := value, valid := true, ch := .idle }
    else some { d with ch := .acq (buf ++ [transform cfg.inverted v]) }

theorem AxisData.afterReading_of_idle {cfg : AxisConfig} {v : BitVec 16} {d : AxisData} (h : d.ch = .idle) :
    d.afterReading cfg v = some d := by
  rw [afterReading, h]

theorem AxisData.afterReading_of_acq {cfg : AxisConfig} {v : BitVec 16} {d : AxisData} {buf : List Reading}
    (h : d.ch = .acq buf) : d.afterReading cfg v =
      if buf.length + 1 = cfg.window.toNat then
        (resolve cfg (buf ++ [transform cfg.inverted v])).map fun value => { axv := value, valid := true, ch := .idle }
      else some { d with ch := .acq (buf ++ [transform cfg.inverted v]) } := by
  rw [afterReading, h]

@[simp] theorem TxPath.withAxisData_axc (t : TxPath) (a : Axis) (d : AxisData) : (t.withAxisData a d).axc = t.axc := rfl

@[simp] theorem TxPath.withAxisData_self (t : TxPath) (a : Axis) : t.withAxisData a (t.axisData a) = t := by
  cases a <;> rfl

/-- Storing a reading writes the channel alone. -/
theorem TxPath.storeReadings_eq_withAxisData (t : TxPath) (a : Axis) (buf : List Reading) :
    t.storeReadings a buf = t.withAxisData a { t.axisData a with ch := .acq buf } := by
  cases a <;> rfl

theorem TxPath.axisData_withAxisData_of_ne {a a' : Axis} (t : TxPath) (d : AxisData) (h : a' ≠ a) :
    (t.withAxisData a d).axisData a' = t.axisData a' := by
  simp [axisData, withAxisData, PerAxis.get_set_of_ne _ _ h]

theorem TxPath.withAxisData_comm {a a' : Axis} (t : TxPath) (d d' : AxisData) (h : a ≠ a') :
    (t.withAxisData a d).withAxisData a' d' = (t.withAxisData a' d').withAxisData a d := by
  simp [withAxisData, PerAxis.set_comm _ _ _ h]

/-- A reading reads the configuration and data of its axis, and writes that data, alone (R172). -/
theorem adcEvent_eq_afterReading (a : Axis) (v : BitVec 16) (s : State) : adcEvent a v s =
    ((s.block.tx.axisData a).afterReading (s.block.tx.axc.get a) v).elim (.fault .selectionUndefined)
      fun d => .next (s.onBlock (Block.onTx (TxPath.withAxisData a d))) := by
  cases hch : s.block.tx.ch.get a with
  | idle =>
    rw [adcEvent_of_idle v hch, AxisData.afterReading_of_idle hch]
    simp [State.onBlock, Block.onTx]
  | acq buf =>
    rw [adcEvent_of_acq v hch, AxisData.afterReading_of_acq hch]
    split
    · unfold TxPath.nextBuf
      cases resolve (s.block.tx.axc.get a) (buf ++ [transform (s.block.tx.axc.get a).inverted v]) <;> rfl
    · simp [State.onBlock, Block.onTx, TxPath.nextBuf, TxPath.storeReadings_eq_withAxisData]

/-- A reading on another axis finds its own axis as it was (R172). -/
theorem andThen_adcEvent {a a' : Axis} (h : a' ≠ a) (v w : BitVec 16) (s : State) :
    andThen (adcEvent a v s) (adcEvent a' w) =
      ((s.block.tx.axisData a).afterReading (s.block.tx.axc.get a) v).elim (.fault .selectionUndefined) fun d =>
        ((s.block.tx.axisData a').afterReading (s.block.tx.axc.get a') w).elim (.fault .selectionUndefined) fun d' =>
          .next (s.onBlock (Block.onTx fun t => (t.withAxisData a d).withAxisData a' d')) := by
  rw [adcEvent_eq_afterReading]
  cases (s.block.tx.axisData a).afterReading (s.block.tx.axc.get a) v with
  | none => rfl
  | some d =>
    simp only [Option.elim, andThen]
    rw [adcEvent_eq_afterReading]
    simp [TxPath.axisData_withAxisData_of_ne _ _ h]
    rfl

/-- Readings on different axes commute: their writes do, and both orders fault alike (R172). -/
theorem adcEvent_comm {a a' : Axis} (h : a' ≠ a) (v w : BitVec 16) (s : State) :
    andThen (adcEvent a v s) (adcEvent a' w) = andThen (adcEvent a' w s) (adcEvent a v) := by
  rw [andThen_adcEvent h, andThen_adcEvent h.symm]
  cases (s.block.tx.axisData a).afterReading (s.block.tx.axc.get a) v <;>
    cases (s.block.tx.axisData a').afterReading (s.block.tx.axc.get a') w <;>
    simp [TxPath.withAxisData_comm _ _ _ h]

@[simp] theorem andThen_next (r : Result) : andThen r .next = r := by cases r <;> rfl

/-- Two readings at the head of the inputs are two steps, which the rest of the inputs does not affect. -/
theorem run_two_adc (a a' : Axis) (v w : BitVec 16) (rest : List Input) (s : State) :
    run 2 (s.setInputs (.adc a v :: .adc a' w :: rest)) = andThen (adcEvent a v (s.setInputs rest)) (adcEvent a' w) := by
  have hfirst : step (s.setInputs (.adc a v :: .adc a' w :: rest)) = adcEvent a v (s.setInputs (.adc a' w :: rest)) :=
    step_of_inputs (i := .adc a v) rfl
  rw [run, hfirst, adcEvent_eq_afterReading, adcEvent_eq_afterReading]
  simp only [State.setInputs_block]
  cases (s.block.tx.axisData a).afterReading (s.block.tx.axc.get a) v with
  | none => rfl
  | some d => exact andThen_next _

/-- Settles O28: the two steps are two readings on different axes. -/
theorem readingsOfTheTwoAxesCommute : Obligations.ReadingsOfTheTwoAxesCommute := by
  intro s v w rest
  rw [run_two_adc, run_two_adc, adcEvent_comm (by decide)]

end Sys2Proof.Machine

/-! ## The button bank (42_button_bank.md) -/

namespace Sys2Proof.Machine

/-! The one word of a command without operand -/

/-- A word whose value is an opcode other than SAMPLE's is its opcode's one legal word: another word with that opcode
has RSV or ARG other than 0 (30_encoding.md R107, R108). -/
theorem oneLegalWord_of_encode {i : Instr} {w : Word} (hw : Sys2Proof.encode i = .command w) (hlt : w.toNat < 256)
    (hop : w.toNat ≠ 1) : OneLegalWord i w := by
  refine ⟨hw, fun v s hv hne => (illegalCommandWordsOnlyRaiseCmdIllegal v).2 ?_ s⟩
  have hval : v.toNat ≠ w.toNat := mt BitVec.eq_of_toNat_eq hne
  omega

/-! LATCH_BTN -/

theorem buttonMask_getLsbD (n i : Nat) : (buttonMask n).getLsbD i = (decide (i < 8) && decide (i < n)) := by
  rw [buttonMask, BitVec.getLsbD_ofNat, Nat.testBit_two_pow_sub_one]

/-- A button the build has is pressed where its raw level is low (R191, R192). -/
theorem pressed_getLsbD {i : Nat} (hi : i < 8) (n : Nat) (raw : Byte) :
    (pressed n raw).getLsbD i = (decide (i < n) && !raw.getLsbD i) := by
  rw [pressed, BitVec.getLsbD_and, BitVec.getLsbD_not, buttonMask_getLsbD]
  simp [hi, Bool.and_comm]

/-- Scripted levels are the ones sampled (30_encoding.md R112). -/
theorem State.drawnPins_of_scripted {s : State} {b : Byte} (h : s.port.pinsNext = some b) : s.drawnPins = b := by
  rw [drawnPins, h, Option.getD_some]

theorem execLatchBtn_of_en {s : State} (h : s.block.ctrl.en = true) : execLatchBtn s =
    .next (s.afterPins.onBlock (Block.onTx (TxPath.latch (pressed s.build.nButtons s.drawnPins)))) :=
  whenEnabled_of_en h

/-- Settles O30: the levels drawn are the ones latched, and the draw touches the script and the draw counter alone. -/
theorem latchBtnSamplesActiveLowPins : Obligations.LatchBtnSamplesActiveLowPins := by
  refine ⟨oneLegalWord_of_encode rfl (by decide) (by decide), fun s => ⟨fun hen => ?_, whenEnabled_of_not_en⟩⟩
  refine ⟨s.drawnPins, pressed s.build.nButtons s.drawnPins, _, fun b => State.drawnPins_of_scripted,
    fun i hi => pressed_getLsbD hi _ _, execLatchBtn_of_en hen, ?_, ?_⟩
  · rw [State.onBlock_block, State.afterPins_block]
    rfl
  · simp

end Sys2Proof.Machine

/-! ## The frame packer (43_frame_packer.md) -/

namespace Sys2Proof.Machine

/-! The rescale and the clamp -/

theorem Resolution.shift_pos (res : Resolution) : 0 < res.shift := by cases res <;> decide

/-- The rounded quotient is nearest to `v / 2^S`; of a tie it is the upper one under HALF_UP, the even one under
HALF_EVEN (R205). -/
theorem roundShift_nearest (ties : RoundTies) {S : Nat} (v : Nat) (hS : 0 < S) :
    2 * (roundShift ties S v * 2 ^ S) ≤ 2 * v + 2 ^ S ∧ 2 * v ≤ 2 * (roundShift ties S v * 2 ^ S) + 2 ^ S ∧
      (2 * (v % 2 ^ S) = 2 ^ S →
        (ties = .halfUp → v < roundShift ties S v * 2 ^ S) ∧ (ties = .halfEven → roundShift ties S v % 2 = 0)) := by
  have hv : v / 2 ^ S * 2 ^ S + v % 2 ^ S = v := Nat.div_add_mod' v (2 ^ S)
  have hpos : 0 < 2 ^ S := Nat.two_pow_pos S
  have hsucc : (v / 2 ^ S + 1) * 2 ^ S = v / 2 ^ S * 2 ^ S + 2 ^ S := Nat.add_one_mul _ _
  obtain ⟨hr, hn⟩ | ⟨hr, hn⟩ | ⟨hr, hn⟩ := roundShift_cases ties v hS
  · rw [hn]; omega
  · rw [hn, hsucc]; omega
  · cases ties with
    | halfUp => simp only [hn, hsucc, reduceCtorEq, false_implies, and_true]; omega
    | halfEven =>
      obtain hq | hq : v / 2 ^ S % 2 = 0 ∨ v / 2 ^ S % 2 = 1 := by omega
      · simp only [hn, hq, Nat.add_zero]; simp; omega
      · simp only [hn, hq, hsucc]; simp; omega

/-- The rounded quotient reaches 2^(res+1) from half a step below the top of the 16-bit range on, and goes no higher
(R205, R207). Halfway to the top the quotient below is odd, so that either tie rule rounds up. -/
theorem roundShift_eq_top_iff (ties : RoundTies) (res : Resolution) {v : Nat} (hv : v ≤ 65536) :
    roundShift ties res.shift v ≤ 2 ^ (res.bits + 1) ∧
      (roundShift ties res.shift v = 2 ^ (res.bits + 1) ↔ 65536 - 2 ^ (14 - res.bits) ≤ v) := by
  obtain ⟨hle, hge, htie⟩ := roundShift_nearest ties v res.shift_pos
  have htie' : 2 * (v % 2 ^ res.shift) = 2 ^ res.shift →
      v < roundShift ties res.shift v * 2 ^ res.shift ∨ roundShift ties res.shift v % 2 = 0 := fun h => by
    cases ties
    · exact .inr ((htie h).2 rfl)
    · exact .inl ((htie h).1 rfl)
  generalize roundShift ties res.shift v = n at hle hge htie' ⊢
  cases res <;> simp [Resolution.bits, Resolution.shift] at hle hge htie' ⊢ <;> omega

/-- Settles O31: the scaled value is the rounded quotient, at most 2^(res+1), less 2^res. -/
theorem rescaleRoundsToNearest : Obligations.RescaleRoundsToNearest := by
  intro ties res v
  obtain ⟨hle, -⟩ := roundShift_eq_top_iff ties res (v := v.toNat) (by omega)
  refine ⟨roundShift ties res.shift v.toNat, rfl, ?_, ?_, roundShift_nearest ties v.toNat res.shift_pos⟩
  · simp [rescale]
  · have hpow : (2 : Nat) ^ (res.bits + 1) = 2 * 2 ^ res.bits := Nat.pow_succ'
    simp only [rescale]
    zify [hpow] at hle
    omega

/-- The clamp changes exactly the scaled value above the range (R206). -/
theorem isClamped_rescale_iff (ties : RoundTies) (res : Resolution) (v : BitVec 16) :
    isClamped res (rescale ties res v) = true ↔ roundShift ties res.shift v.toNat = 2 ^ (res.bits + 1) := by
  obtain ⟨hle, -⟩ := roundShift_eq_top_iff ties res (v := v.toNat) (by omega)
  rw [isClamped, decide_eq_true_eq, rescale, Resolution.top]
  generalize roundShift ties res.shift v.toNat = n at *
  cases res <;> simp [Resolution.bits] at hle ⊢ <;> omega

/-- Settles O32: the clamp and the threshold both say that the rounded quotient is 2^(res+1). -/
theorem clampThreshold : Obligations.ClampThreshold := by
  intro ties res v
  obtain ⟨-, htop⟩ := roundShift_eq_top_iff ties res (v := v.toNat) (by omega)
  have hmax : roundShift ties res.shift 65536 = 2 ^ (res.bits + 1) :=
    (roundShift_eq_top_iff ties res (Nat.le_refl _)).2.2 (Nat.sub_le _ _)
  refine ⟨(isClamped_rescale_iff ties res v).trans htop, isClamped_rescale_iff ties res v, ?_, fun h => ?_, fun h => ?_⟩
  · rw [hmax, clamp, Resolution.top, min_eq_right]
    cases res <;> decide
  · exact min_eq_right (Int.le_of_lt (of_decide_eq_true h))
  · exact min_eq_left (Int.not_lt.1 (of_decide_eq_false h))

/-! The axis bytes -/

theorem getElem_magHi (s : Int) {i : Nat} (hi : i < 8) : (magHi s)[i] = s.natAbs.testBit (8 + i) :=
  getLsbD_magHi s hi

/-- The bits an axis byte is assembled from: base, sign, and the magnitude's bits 9:8 and 11:10 (R208, R209). -/
theorem getLsbD_axisByte (res : Resolution) (axis : Axis) (s : Int) {i : Nat} (hi : i < 8) :
    (axisByte res axis s).getLsbD i = ((baseByte res axis).getLsbD i || (decide (s < 0) && decide (i = 4)) ||
      (decide (6 ≤ i) && s.natAbs.testBit (i + 2)) || (decide (i = 2 ∨ i = 3) && s.natAbs.testBit (i + 8))) := by
  have hsign : (if s < 0 then 0x10#8 else 0x00#8).getLsbD i = (decide (s < 0) && decide (i = 4)) := by
    split <;> interval_cases i <;> simp [*]
  have hmid : ((magHi s <<< 6) &&& 0xC0#8).getLsbD i = (decide (6 ≤ i) && s.natAbs.testBit (i + 2)) := by
    interval_cases i <;> simp [getElem_magHi]
  have hhigh : (magHi s &&& 0x0C#8).getLsbD i = (decide (i = 2 ∨ i = 3) && s.natAbs.testBit (i + 8)) := by
    interval_cases i <;> simp [getElem_magHi]
  rw [axisByte, BitVec.getLsbD_or, BitVec.getLsbD_or, BitVec.getLsbD_or, hsign, hmid, hhigh]

/-- The base stands in bits 1:0 alone (R209). -/
theorem getLsbD_baseByte (res : Resolution) (axis : Axis) {i : Nat} (hi : 2 ≤ i) :
    (baseByte res axis).getLsbD i = false := by
  obtain h | h := baseByte_cases res axis <;> rw [h]
  · simp
  · exact Nat.testBit_lt_two_pow (Nat.lt_of_lt_of_le (by decide : 3 < 2 ^ 2) (Nat.pow_le_pow_right (by decide) hi))

/-- Bits 7 to 2 of an axis byte: sign and magnitude (R215). -/
theorem getLsbD_axisByte_of_two_le (res : Resolution) (axis : Axis) (s : Int) {i : Nat} (hlow : 2 ≤ i) (hi : i < 8) :
    (axisByte res axis s).getLsbD i = ((decide (s < 0) && decide (i = 4)) ||
      (decide (6 ≤ i) && s.natAbs.testBit (i + 2)) || (decide (i = 2 ∨ i = 3) && s.natAbs.testBit (i + 8))) := by
  rw [getLsbD_axisByte res axis s hi, getLsbD_baseByte res axis hlow, Bool.false_or]

theorem getLsbD_four_axisByte (res : Resolution) (axis : Axis) (s : Int) :
    (axisByte res axis s).getLsbD 4 = decide (s < 0) :=
  (getLsbD_axisByte_of_two_le res axis s (by decide) (by decide)).trans (by simp)

/-- The base of R209's table stands alone in bits 1:0 (R215). -/
theorem axisByte_mod_four (res : Resolution) (axis : Axis) (s : Int) :
    (axisByte res axis s).toNat % 4 = (baseByte res axis).toNat := by
  have hlow : (axisByte res axis s).setWidth 2 = (baseByte res axis).setWidth 2 := by
    apply BitVec.eq_of_getLsbD_eq; intro i hi
    have := getLsbD_axisByte res axis s (i := i) (by omega)
    interval_cases i <;> simpa [BitVec.getLsbD_setWidth] using this
  have hbase : (baseByte res axis).toNat < 4 := by obtain h | h := baseByte_cases res axis <;> simp [h]
  have := congrArg BitVec.toNat hlow
  simpa [Nat.mod_eq_of_lt hbase] using this

theorem natAbs_le_two_pow {res : Resolution} {s : Int} (h1 : -(2 ^ res.bits : Int) ≤ s) (h2 : s ≤ 2 ^ res.bits - 1) :
    s.natAbs ≤ 2 ^ res.bits := by
  cases res <;> simp [Resolution.bits] at h1 h2 ⊢ <;> omega

theorem testBit_eq_false_of_le {m i k : Nat} (h : m ≤ 2 ^ k) (hi : k < i) : m.testBit i = false :=
  Nat.testBit_lt_two_pow (Nat.lt_of_le_of_lt h (Nat.pow_lt_pow_right (by decide) hi))

/-- Of the numbers up to a power of two, that power alone has its bit. -/
theorem testBit_eq_true_iff_of_le {m k : Nat} (h : m ≤ 2 ^ k) : m.testBit k = true ↔ m = 2 ^ k := by
  refine ⟨fun hbit => Nat.le_antisymm h (Nat.ge_two_pow_of_testBit hbit), ?_⟩
  rintro rfl
  exact Nat.testBit_two_pow_self

/-- Settles O33: at res 8 and res 10 the magnitude is at most 2^res, whose bit alone can be set from there up. -/
theorem axisByteLayout : Obligations.AxisByteLayout := by
  intro res axis s hlo hhi b m
  have hle : m ≤ 2 ^ res.bits := natAbs_le_two_pow hlo hhi
  have h7 : b.getLsbD 7 = m.testBit 9 :=
    (getLsbD_axisByte_of_two_le res axis s (by decide) (by decide)).trans (by simp [m])
  have h6 : b.getLsbD 6 = m.testBit 8 :=
    (getLsbD_axisByte_of_two_le res axis s (by decide) (by decide)).trans (by simp [m])
  have h5 : b.getLsbD 5 = false :=
    (getLsbD_axisByte_of_two_le res axis s (by decide) (by decide)).trans (by simp)
  have h3 : b.getLsbD 3 = m.testBit 11 :=
    (getLsbD_axisByte_of_two_le res axis s (by decide) (by decide)).trans (by simp [m])
  have h2 : b.getLsbD 2 = m.testBit 10 :=
    (getLsbD_axisByte_of_two_le res axis s (by decide) (by decide)).trans (by simp [m])
  refine ⟨h7, h6, h5, getLsbD_four_axisByte res axis s, h3, h2, ?_, magLo_toNat s, ?_, ?_⟩
  · rw [axisByte_mod_four]
    cases res <;> cases axis <;> rfl
  · rintro rfl
    rw [h7, h6, h3, h2]
    exact ⟨testBit_eq_false_of_le hle (by decide), testBit_eq_false_of_le hle (by decide),
      testBit_eq_false_of_le hle (by decide), testBit_eq_true_iff_of_le hle⟩
  · rintro rfl
    rw [h3, h2]
    exact ⟨testBit_eq_false_of_le hle (by decide), testBit_eq_true_iff_of_le hle⟩

/-! The reference decoder -/

/-- `hi` of DecodeAxis: the magnitude bits of byte 0 or byte 2 (R216). -/
def decodedHi (b : Byte) : Byte := ((b >>> 6) &&& 0x03#8) ||| (b &&& 0x0C#8)

/-- DecodeAxis is the sign applied to the magnitude of the two bytes (R216). -/
theorem decodeAxis_eq (res : Resolution) (b0 b1 : Byte) : decodeAxis res b0 b1 =
    if b0 &&& 0x10#8 = 0 then (((decodedHi b0).toNat * 256 + b1.toNat : Nat) : Int)
    else if (decodedHi b0).toNat * 256 + b1.toNat = 0 then -(2 ^ res.bits : Int)
    else -(((decodedHi b0).toNat * 256 + b1.toNat : Nat) : Int) := rfl

/-- The axis byte holds the magnitude's bits 11:8 (R208). -/
theorem decodedHi_axisByte (res : Resolution) (axis : Axis) (s : Int) :
    decodedHi (axisByte res axis s) = magHi s &&& 0x0F#8 := by
  apply BitVec.eq_of_getLsbD_eq; intro i hi
  interval_cases i <;>
    simp [decodedHi, getLsbD_magHi, getLsbD_axisByte_of_two_le, -BitVec.getLsbD_eq_getElem]

/-- The magnitude the decoder reads lacks m[12] and is otherwise the value's (R208). -/
theorem decodedHi_mul_add_magLo (res : Resolution) (axis : Axis) {s : Int} (h : s.natAbs ≤ 4096) :
    (decodedHi (axisByte res axis s)).toNat * 256 + (magLo s).toNat = s.natAbs % 4096 := by
  have hlow : (magHi s &&& 0x0F#8).toNat = s.natAbs / 256 % 16 := by
    rw [BitVec.toNat_and, magHi_toNat h]
    exact Nat.and_two_pow_sub_one_eq_mod _ 4
  rw [decodedHi_axisByte, hlow, magLo_toNat]
  omega

theorem axisByte_and_sign_eq_zero_iff (res : Resolution) (axis : Axis) (s : Int) :
    axisByte res axis s &&& 0x10#8 = 0 ↔ ¬ s < 0 := by
  rw [show 0x10#8 = BitVec.twoPow 8 4 from rfl, BitVec.and_twoPow, getLsbD_four_axisByte]
  by_cases hs : s < 0
  · simp only [hs, decide_true, if_true, not_true, iff_false]
    decide
  · simp [hs]

/-- The magnitude bits of a byte are those of the mask 0xCC (R215). -/
theorem decodedHi_eq_zero {b : Byte} (h : b &&& 0xCC#8 = 0) : decodedHi b = 0 := by
  have hmask : decodedHi b = decodedHi (b &&& 0xCC#8) := by
    apply BitVec.eq_of_getLsbD_eq; intro i hi
    interval_cases i <;> simp [decodedHi]
  rw [hmask, h]
  rfl

/-- A negative scaled value whose magnitude bits are all dropped is -4096, in range at res 12 alone (R216). -/
theorem eq_of_magnitude_dropped {res : Resolution} {s : Int} (h1 : -(2 ^ res.bits : Int) ≤ s) (hneg : s < 0)
    (hm : s.natAbs % 4096 = 0) : res = .bits12 ∧ s = -4096 := by
  cases res <;> simp [Resolution.bits] at h1 ⊢ <;> omega

/-- Settles O34: the bytes hold the magnitude modulo 4096 and the sign, and only -4096 loses a bit. -/
theorem axisRoundTrip : Obligations.AxisRoundTrip := by
  intro res axis s h1 h2
  have hm := decodedHi_mul_add_magLo res axis (natAbs_le_of_scaled h1 h2)
  refine ⟨?_, fun hsign hbits hlo => ?_⟩
  · rw [decodeAxis_eq, hm]
    simp only [axisByte_and_sign_eq_zero_iff]
    by_cases hneg : s < 0
    · rw [if_neg (not_not.2 hneg)]
      split
      · obtain ⟨rfl, rfl⟩ := eq_of_magnitude_dropped h1 hneg ‹_›
        rfl
      · have := natAbs_le_of_scaled h1 h2
        omega
    · rw [if_pos hneg]
      have : s.natAbs < 4096 := by cases res <;> simp [Resolution.bits] at h2 <;> omega
      omega
  · rw [getLsbD_four_axisByte, decide_eq_true_eq] at hsign
    rw [decodedHi_eq_zero hbits, hlo] at hm
    exact eq_of_magnitude_dropped h1 hsign hm.symm

/-! The payload -/

theorem buttonBit_toNat (btn : BitVec 8) (i : Nat) (v : Byte) :
    (buttonBit btn i v).toNat = v.toNat * (btn.getLsbD i).toNat := by
  cases h : btn.getLsbD i <;> simp [buttonBit, h]

theorem buttonByte5_toNat (btn : BitVec 8) : (buttonByte5 btn).toNat =
    0x40 * (btn.getLsbD 0).toNat + 0x10 * (btn.getLsbD 1).toNat + 0x04 * (btn.getLsbD 2).toNat +
      (btn.getLsbD 3).toNat := by
  simp only [buttonByte5, BitVec.toNat_or, buttonBit_toNat]
  generalize btn.getLsbD 0 = a, btn.getLsbD 1 = b, btn.getLsbD 2 = c, btn.getLsbD 3 = d
  revert a b c d
  decide

theorem buttonByte6_toNat (btn : BitVec 8) : (buttonByte6 btn).toNat =
    0x04 * (btn.getLsbD 4).toNat + 0x40 * (btn.getLsbD 5).toNat := by
  simp only [buttonByte6, BitVec.toNat_or, buttonBit_toNat]
  generalize btn.getLsbD 4 = a, btn.getLsbD 5 = b
  revert a b
  decide

/-- Settles O35: the bytes are those of the clamped values, and the buttons' OR values share no bit. -/
theorem buttonBytesAndMarkers : Obligations.ButtonBytesAndMarkers := by
  intro ties res x y btn
  refine ⟨rfl, magLo_toNat _, rfl, magLo_toNat _, rfl, rfl, buttonByte5_toNat btn, buttonByte6_toNat btn, ?_⟩
  simp only [encodeClamped, isClamped, Bool.or_eq_true, decide_eq_true_eq]
  rfl

/-! ENCODE -/

theorem resOf_of_bits {res : Resolution} {r : BitVec 2} (h : res.bits = 8 + 2 * r.toNat) : resOf r = some res := by
  have hr : r = BitVec.ofNat 2 ((res.bits - 8) / 2) := BitVec.eq_of_toNat_eq (by
    have := r.isLt
    rw [BitVec.toNat_ofNat]; omega)
  rw [hr]
  cases res <;> rfl

theorem TxPath.fresh_eq_true {t : TxPath} (hx : t.valid.x = true) (hy : t.valid.y = true) (hb : t.btnValid = true) :
    t.fresh = true := by
  rw [fresh, hx, hy, hb]; rfl

theorem TxPath.fresh_eq_false {t : TxPath} (h : t.valid.x = false ∨ t.valid.y = false ∨ t.btnValid = false) :
    t.fresh = false := by
  obtain h | h | h := h <;> simp [fresh, h]

theorem execEncode_of_fresh {s : State} {res : Resolution} (hen : s.block.ctrl.en = true)
    (hfresh : s.block.tx.fresh = true) (hres : resOf s.block.ctrl.res = some res) :
    execEncode s = .next (s.onBlock (Block.packFrame s.build.roundTies res)) := by
  rw [execEncode, whenEnabled_of_en hen, encodeFrame, if_pos hfresh, hres]

theorem execEncode_of_stale {s : State} (hen : s.block.ctrl.en = true) (hfresh : s.block.tx.fresh = false) :
    execEncode s = .next (s.raise .notValid) := by
  rw [execEncode, whenEnabled_of_en hen, encodeFrame, hfresh]
  rfl

/-- Settles O36: the frame registers hold the payload's lanes, and the frame's update is the record written out. -/
theorem encodePacksTheFrame : Obligations.EncodePacksTheFrame := by
  refine ⟨oneLegalWord_of_encode rfl (by decide) (by decide), fun s => ⟨?_, ?_, whenEnabled_of_not_en⟩⟩
  · intro res hen hx hy hb hres p clamped
    refine ⟨p.lo, p.hi, ofLanes_toNat _ _ _ _, ofLanes_toNat _ _ _ _, ?_⟩
    rw [exec_encode, execEncode_of_fresh hen (TxPath.fresh_eq_true hx hy hb) (resOf_of_bits hres), State.onBlock,
      Block.packFrame, Block.noteIf_eq]
    rfl
  · intro hen hstale
    exact execEncode_of_stale hen (TxPath.fresh_eq_false hstale)

/-! SEND -/

/-- A scripted answer is the one taken (30_encoding.md R112). -/
theorem State.drawnTx_of_scripted {s : State} {r : TxResult} (h : s.port.txNext = some r) : s.drawnTx = r := by
  rw [drawnTx, h, Option.getD_some]

/-- A register is the sum of its four lanes (20_memory.md R76). -/
theorem toNat_eq_lanes (w : Word) : w.toNat =
    (lane 0 w).toNat + 2 ^ 8 * (lane 1 w).toNat + 2 ^ 16 * (lane 2 w).toNat + 2 ^ 24 * (lane 3 w).toNat := by
  simp only [lane_toNat]
  omega

theorem execSend_of_unsent {s : State} (hen : s.block.ctrl.en = true) (hv : s.block.tx.frameValid = true) :
    execSend s = .next ((s.emit s.block.tx.txFrame).afterTx.onBlock (Block.afterSend s.drawnTx)) := by
  rw [execSend, whenEnabled_of_en hen, sendFrame, if_pos hv]

theorem execSend_of_spent {s : State} (hen : s.block.ctrl.en = true) (hv : s.block.tx.frameValid = false) :
    execSend s = .next (s.raise .notValid) := by
  rw [execSend, whenEnabled_of_en hen, sendFrame, hv]
  rfl

theorem Block.afterSend_eq (r : TxResult) (b : Block) : b.afterSend r =
    { b with err := b.err ||| (if r = .fail then 0x040#11 else 0), tx := b.tx.spendFrame } := by
  rw [afterSend, noteIf_eq]
  cases r <;> rfl

/-- Settles O37: the registers' lanes are the frame handed over, and the answer drawn decides TX_FAIL alone. -/
theorem sendHandsTheFrameToTheTransport : Obligations.SendHandsTheFrameToTheTransport := by
  refine ⟨oneLegalWord_of_encode rfl (by decide) (by decide),
    fun s => ⟨fun hen hv => ?_, execSend_of_spent, whenEnabled_of_not_en⟩⟩
  refine ⟨s.drawnTx, Payload.ofRegs s.block.tx.frameLo s.block.tx.frameHi, _, fun r => State.drawnTx_of_scripted,
    toNat_eq_lanes _, toNat_eq_lanes _, execSend_of_unsent hen hv, ?_, ?_, ?_⟩
  · simp [TxPath.txFrame, Config.txId]
  · rw [State.onBlock_block, State.afterTx_block, State.emit_block, Block.afterSend_eq]
    rfl
  · simp

/-- The frame of the frame registers is a joystick frame once they have the marker bytes (R211, R214). -/
theorem sentOk_of_append {s t : State} (h : SentOk s) (hv : s.block.tx.frameValid = true) (hframe : FrameOk s.block.tx)
    (hsent : t.port.sent = s.port.sent ++ [s.block.tx.txFrame]) : SentOk t := by
  intro f hf
  rw [hsent, List.mem_append, List.mem_singleton] at hf
  obtain hf | rfl := hf
  · exact h f hf
  · obtain ⟨h4, h7⟩ := hframe hv
    exact ⟨rfl, rfl, h4, h7⟩

/-- Settles O60: a step sends nothing, or the unsent frame, which the invariant says has the marker bytes. -/
theorem sentFramesAreJoystickFrames : Obligations.SentFramesAreJoystickFrames := by
  intro s t hinv hok hstep
  obtain hkept | ⟨hv, hsent⟩ := step_sent hstep
  · rwa [SentOk, hkept]
  · exact sentOk_of_append hok hv hinv.frame hsent

end Sys2Proof.Machine

/-! ## Inbound status frames -/

namespace Sys2Proof.Machine

/-- RX_FRAME while enabled changes the block alone, by the frame received (44_status_rx.md R231). -/
theorem execRxFrame_of_en {s : State} (hen : s.block.ctrl.en = true) :
    execRxFrame s = .next { s with block := s.block.receive s.build.nLeds } :=
  whenEnabled_of_en hen

/-- Settles O38: each rejection is one branch of the reception. -/
theorem rejectedFramesChangeNoIndicator : Obligations.RejectedFramesChangeNoIndicator := by
  refine fun s => ⟨whenEnabled_of_not_en, fun hen hlen => ?_, fun hen hlen hfilters => ?_⟩
  · rw [exec_rxFrame, execRxFrame_of_en hen, Block.receive_of_tooLong _ hlen]
    rfl
  · rw [exec_rxFrame, execRxFrame_of_en hen,
      Block.receive_of_rejected _ (Nat.not_lt.2 hlen) (filterMatch_eq_false hfilters)]
    rfl

/-- Settles O39: the table of the 16 codes, entry by entry. -/
theorem statusCodes : Obligations.StatusCodes :=
  ⟨rfl, rfl, rfl, rfl, rfl, by decide, by decide⟩

/-! The batch format -/

theorem highNibble_ofNat (n : Nat) : highNibble (BitVec.ofNat 8 n) = BitVec.ofNat 4 (n / 2 ^ 4) := by
  apply BitVec.eq_of_toNat_eq
  simp [highNibble, BitVec.extractLsb'_toNat, Nat.shiftRight_eq_div_pow]
  omega

theorem lowNibble_ofNat (n : Nat) : lowNibble (BitVec.ofNat 8 n) = BitVec.ofNat 4 n := by
  apply BitVec.eq_of_toNat_eq
  simp [lowNibble, BitVec.extractLsb'_toNat]

/-- The payload of the RX registers as one number, byte 0 lowest (20_memory.md R76). -/
def RxPath.data (r : RxPath) : Nat := r.rxDataLo.toNat + 2 ^ 32 * r.rxDataHi.toNat

/-- Byte `n` of the payload of the RX registers. -/
def RxPath.dataByte (r : RxPath) (n : Nat) : Byte := BitVec.ofNat 8 (r.data / 2 ^ (8 * n))

theorem RxPath.getElem?_bytes_eq_dataByte {r : RxPath} (hlen : r.rxLen.toNat ≤ 8) (n : Nat) :
    r.bytes[n]? = if n < r.rxLen.toNat then some (r.dataByte n) else none := r.getElem?_bytes hlen n

/-- The nibble of indicator `i` in the payload: of byte `i / 2`, the high one for an even `i` (44_status_rx.md R238). -/
def RxPath.nibble (r : RxPath) (i : Nat) : BitVec 4 :=
  BitVec.ofNat 4 (r.data / 2 ^ (8 * (i / 2) + if i % 2 = 0 then 4 else 0))

theorem RxPath.nibble_eq (r : RxPath) (i : Nat) : r.nibble i =
    if i % 2 = 0 then highNibble (r.dataByte (i / 2)) else lowNibble (r.dataByte (i / 2)) := by
  split <;> rename_i hi
  · rw [nibble, dataByte, highNibble_ofNat, if_pos hi, pow_add, Nat.div_div_eq_div_mul]
  · rw [nibble, dataByte, lowNibble_ofNat, if_neg hi, Nat.add_zero]

/-- The code a batch frame in the RX registers carries for an indicator. -/
theorem RxPath.batchCode_bytes {r : RxPath} (hlen : r.rxLen.toNat ≤ 8) (i : Nat) :
    batchCode r.bytes i = if i < 9 ∧ i / 2 < r.rxLen.toNat then some (r.nibble i) else none := by
  rw [batchCode, RxPath.getElem?_bytes_eq_dataByte hlen, ite_and, apply_ite (Option.map _), Option.map_some,
    Option.map_none, ← RxPath.nibble_eq]

section
variable (now : Word) (bytes : List Byte) (leds : List Led) {i : Nat}

theorem getElem?_decodeBatch_of_some {code : BitVec 4} (h : batchCode bytes i = some code) :
    (decodeBatch now bytes leds)[i]? = leds[i]?.map (applyTarget now (codeToTarget code)) := by
  simp [decodeBatch, List.getElem?_mapIdx, h]

theorem getElem?_decodeBatch_of_none (h : batchCode bytes i = none) :
    (decodeBatch now bytes leds)[i]? = leds[i]? := by
  simp [decodeBatch, List.getElem?_mapIdx, h]

end

theorem batchFallback_iff (n : Nat) (bytes : List Byte) : batchFallback n bytes = true ↔
    ∃ i, i < n ∧ ∃ code, batchCode bytes i = some code ∧ 4 < code.toNat := by
  simp only [batchFallback, List.any_eq_true, List.mem_range]
  refine exists_congr fun i => and_congr_right fun _ => ?_
  cases batchCode bytes i <;> simp

/-- FALLBACK is noted for a batch frame in the RX registers exactly when a code that is present is above 4. -/
theorem RxPath.batchFallback_bytes_iff {r : RxPath} (hlen : r.rxLen.toNat ≤ 8) (n : Nat) :
    batchFallback n r.bytes = true ↔
      ∃ i, i < 9 ∧ i < n ∧ i / 2 < r.rxLen.toNat ∧ 4 < (r.nibble i).toNat := by
  simp only [batchFallback_iff, RxPath.batchCode_bytes hlen, Option.ite_none_right_eq_some, Option.some.injEq]
  constructor
  · rintro ⟨i, hn, _, ⟨⟨h9, hbyte⟩, rfl⟩, hcode⟩
    exact ⟨i, h9, hn, hbyte, hcode⟩
  · rintro ⟨i, h9, hn, hbyte, hcode⟩
    exact ⟨i, hn, _, ⟨⟨h9, hbyte⟩, rfl⟩, hcode⟩

/-- What a batch frame in the RX registers makes of one indicator. -/
theorem RxPath.getElem?_decodeBatch_bytes {r : RxPath} (hlen : r.rxLen.toNat ≤ 8) (now : Word) (leds : List Led)
    {i : Nat} {l : Led} (hl : leds[i]? = some l) : (decodeBatch now r.bytes leds)[i]? = some
      (if i < 9 ∧ i / 2 < r.rxLen.toNat then applyTarget now (codeToTarget (r.nibble i)) l else l) := by
  have hcode := RxPath.batchCode_bytes hlen i
  split at hcode
  · rw [getElem?_decodeBatch_of_some _ _ _ hcode, hl, if_pos ‹_›, Option.map_some]
  · rw [getElem?_decodeBatch_of_none _ _ _ hcode, hl, if_neg ‹_›]

/-- Settles O40: the codes are the nibbles of the bytes the RX registers hold. -/
theorem batchFrameAppliesItsCodes : Obligations.BatchFrameAppliesItsCodes := by
  intro s f hen hfmt hlen hf hfen hmatch _ data code
  refine ⟨decodeBatch s.block.now s.block.rx.bytes s.block.rx.leds, batchFallback s.build.nLeds s.block.rx.bytes,
    RxPath.batchFallback_bytes_iff hlen _,
    ⟨decodeBatch_length _ _ _, fun i l => RxPath.getElem?_decodeBatch_bytes hlen _ _⟩, ?_⟩
  rw [exec_rxFrame, execRxFrame_of_en hen,
    Block.receive_of_batch _ (Nat.not_lt.2 hlen) (filterMatch_of_mem hf hfen hmatch) hfmt, Block.noteIf_eq]
  rfl

/-! The single-update format -/

theorem singleUpdate_of_short (n : Nat) {bytes : List Byte} (h : bytes[1]? = none) : singleUpdate n bytes = none := by
  match bytes with
  | [] => rfl
  | [_] => rfl
  | _ :: _ :: _ => simp at h

theorem singleUpdate_of_bytes (n : Nat) {bytes : List Byte} {k b : Byte} (hk : bytes[0]? = some k)
    (hb : bytes[1]? = some b) : singleUpdate n bytes =
      if 1 ≤ k.toNat ∧ k.toNat ≤ n then some (k.toNat - 1, if highNibble b = 0 then .on else .off) else none := by
  match bytes with
  | [] => simp at hk
  | [_] => simp at hb
  | _ :: _ :: _ =>
    cases hk; cases hb
    by_cases h : 1 ≤ k.toNat ∧ k.toNat ≤ n
    · rw [if_pos h, singleUpdate, if_neg (by omega)]
    · rw [if_neg h, singleUpdate, if_pos (by omega)]

theorem RxPath.dataByte_zero_toNat (r : RxPath) : (r.dataByte 0).toNat = r.rxDataLo.toNat % 256 := by
  simp [dataByte, data]
  omega

theorem RxPath.highNibble_dataByte_one_eq_zero_iff (r : RxPath) :
    highNibble (r.dataByte 1) = 0 ↔ r.rxDataLo.toNat / 2 ^ 12 % 16 = 0 := by
  rw [dataByte, highNibble_ofNat, ← BitVec.toNat_inj]
  simp [data]
  omega

/-- The update a single-update frame in the RX registers carries: byte 0 names the indicator from 1, the high nibble of
byte 1 gives the target (44_status_rx.md R239). -/
theorem RxPath.singleUpdate_bytes {r : RxPath} (hlen : r.rxLen.toNat ≤ 8) (n : Nat) : singleUpdate n r.bytes =
    if 2 ≤ r.rxLen.toNat ∧ 1 ≤ r.rxDataLo.toNat % 256 ∧ r.rxDataLo.toNat % 256 ≤ n
      then some (r.rxDataLo.toNat % 256 - 1, if r.rxDataLo.toNat / 2 ^ 12 % 16 = 0 then .on else .off) else none := by
  have hbyte := RxPath.getElem?_bytes_eq_dataByte hlen
  by_cases h2 : 2 ≤ r.rxLen.toNat
  · rw [singleUpdate_of_bytes n ((hbyte 0).trans (if_pos (by omega))) ((hbyte 1).trans (if_pos h2))]
    simp only [h2, true_and, RxPath.dataByte_zero_toNat, RxPath.highNibble_dataByte_one_eq_zero_iff]
  · rw [singleUpdate_of_short n ((hbyte 1).trans (if_neg h2)), if_neg fun h => h2 h.1]

theorem decodeSingle_of_some {n : Nat} {bytes : List Byte} {k : Nat} {t : LedTarget} (now : Word) (leds : List Led)
    (h : singleUpdate n bytes = some (k, t)) : decodeSingle n now bytes leds = leds.modify k (applyTarget now t) := by
  rw [decodeSingle, h]

theorem decodeSingle_of_none {n : Nat} {bytes : List Byte} (now : Word) (leds : List Led)
    (h : singleUpdate n bytes = none) : decodeSingle n now bytes leds = leds := by
  rw [decodeSingle, h]

/-- What a single-update frame in the RX registers makes of one indicator. -/
theorem RxPath.getElem?_decodeSingle_bytes {r : RxPath} (hlen : r.rxLen.toNat ≤ 8) (n : Nat) (now : Word)
    (leds : List Led) {i : Nat} {l : Led} (hl : leds[i]? = some l) : (decodeSingle n now r.bytes leds)[i]? = some
      (if 2 ≤ r.rxLen.toNat ∧ 1 ≤ r.rxDataLo.toNat % 256 ∧ r.rxDataLo.toNat % 256 ≤ n ∧ i + 1 = r.rxDataLo.toNat % 256
        then applyTarget now (if r.rxDataLo.toNat / 2 ^ 12 % 16 = 0 then .on else .off) l else l) := by
  have hupdate := RxPath.singleUpdate_bytes hlen n
  split at hupdate
  · have hindex : r.rxDataLo.toNat % 256 - 1 = i ↔ 2 ≤ r.rxLen.toNat ∧ 1 ≤ r.rxDataLo.toNat % 256 ∧
        r.rxDataLo.toNat % 256 ≤ n ∧ i + 1 = r.rxDataLo.toNat % 256 := by omega
    rw [decodeSingle_of_some now leds hupdate, List.getElem?_modify, hl]
    exact congrArg some (if_congr hindex rfl rfl)
  · rename_i hinvalid
    rw [decodeSingle_of_none now leds hupdate, hl, if_neg fun ⟨h2, h1, hn, _⟩ => hinvalid ⟨h2, h1, hn⟩]

/-- Settles O41: the indicator and the target are those of the two bytes the RX registers hold. -/
theorem singleUpdateFrameAppliesOneTarget : Obligations.SingleUpdateFrameAppliesOneTarget := by
  intro s f hen hfmt hlen hf hfen hmatch k c
  refine ⟨decodeSingle s.build.nLeds s.block.now s.block.rx.bytes s.block.rx.leds,
    ⟨decodeSingle_length _ _ _ _, fun i l => RxPath.getElem?_decodeSingle_bytes hlen _ _ _⟩, ?_⟩
  rw [exec_rxFrame, execRxFrame_of_en hen,
    Block.receive_of_single _ (Nat.not_lt.2 hlen) (filterMatch_of_mem hf hfen hmatch) hfmt]
  rfl

/-! The same frame twice -/

theorem Block.raise_raise (b : Block) (e : ErrBit) : (b.raise e).raise e = b.raise e := by
  simp [Block.raise, BitVec.or_assoc]

/-- A note made before and after a change of the receive path is one note. -/
theorem Block.noteIf_onRx_noteIf (b : Block) (c : Bool) (e : ErrBit) (f : RxPath → RxPath) :
    ((b.noteIf c e).onRx f).noteIf c e = (b.onRx f).noteIf c e := by
  cases c
  · rfl
  · exact Block.raise_raise (b.onRx f) e

theorem applyTarget_comp_self (now : Word) (t : LedTarget) : applyTarget now t ∘ applyTarget now t = applyTarget now t :=
  funext (applyTarget_applyTarget now t)

theorem decodeBatch_decodeBatch (now : Word) (bytes : List Byte) (leds : List Led) :
    decodeBatch now bytes (decodeBatch now bytes leds) = decodeBatch now bytes leds := by
  apply List.ext_getElem?
  intro i
  cases hcode : batchCode bytes i with
  | none => rw [getElem?_decodeBatch_of_none _ _ _ hcode]
  | some code =>
    simp only [getElem?_decodeBatch_of_some _ _ _ hcode, Option.map_map, applyTarget_comp_self]

theorem decodeSingle_decodeSingle (n : Nat) (now : Word) (bytes : List Byte) (leds : List Led) :
    decodeSingle n now bytes (decodeSingle n now bytes leds) = decodeSingle n now bytes leds := by
  cases hupdate : singleUpdate n bytes with
  | none => simp only [decodeSingle_of_none _ _ hupdate]
  | some u => simp only [decodeSingle_of_some _ _ hupdate, List.modify_modify_eq, applyTarget_comp_self]

/-- Accepting a frame twice is accepting it once, for a decoder that then finds nothing left to do. -/
theorem RxPath.accept_accept {decode : List Byte → List Led → List Led}
    (h : ∀ bytes leds, decode bytes (decode bytes leds) = decode bytes leds) (r : RxPath) :
    (r.accept decode).accept decode = r.accept decode :=
  congrArg (fun leds => { r with rxAccepted := true, leds := leds }) (h r.bytes r.leds)

theorem Block.onRx_onRx_accept {decode : List Byte → List Led → List Led}
    (h : ∀ bytes leds, decode bytes (decode bytes leds) = decode bytes leds) (b : Block) :
    (b.onRx (RxPath.accept decode)).onRx (RxPath.accept decode) = b.onRx (RxPath.accept decode) :=
  congrArg (fun rx => { b with rx := rx }) (b.rx.accept_accept h)

/-- A note already made does not change what a batch frame does: the reception reads no ERR bit. -/
theorem Block.receive_noteIf_of_batch (n : Nat) {b : Block} (c : Bool) (e : ErrBit) (hlen : ¬ 8 < b.rx.rxLen.toNat)
    (hacc : filterMatch b.rx.filters b.rx.rxId = true) (hfmt : b.ctrl.fmt = false) : (b.noteIf c e).receive n =
      ((b.noteIf c e).onRx (RxPath.accept (decodeBatch b.now))).noteIf (batchFallback n b.rx.bytes) .fallback := by
  rw [Block.noteIf_eq]
  exact Block.receive_of_batch n hlen hacc hfmt

/-- A reception leaves what decides the next one: the frame, the filters, the format and NOW. So the next one takes the
same branch, and that branch finds nothing left to do. -/
theorem Block.receive_receive (n : Nat) (b : Block) : (b.receive n).receive n = b.receive n := by
  by_cases hlen : 8 < b.rx.rxLen.toNat
  · rw [Block.receive_of_tooLong n hlen]
    exact (Block.receive_of_tooLong (b := b.raise .rxLen) n hlen).trans (b.raise_raise .rxLen)
  cases hacc : filterMatch b.rx.filters b.rx.rxId
  · rw [Block.receive_of_rejected n hlen hacc]
    exact Block.receive_of_rejected n hlen hacc
  cases hfmt : b.ctrl.fmt
  · rw [Block.receive_of_batch n hlen hacc hfmt]
    refine (Block.receive_noteIf_of_batch (b := b.onRx (RxPath.accept (decodeBatch b.now))) n _ _ hlen hacc hfmt).trans ?_
    refine (Block.noteIf_onRx_noteIf _ _ _ _).trans ?_
    exact congrArg (Block.noteIf _ _) (Block.onRx_onRx_accept (decodeBatch_decodeBatch b.now) b)
  · rw [Block.receive_of_single n hlen hacc hfmt]
    exact (Block.receive_of_single (b := b.onRx (RxPath.accept (decodeSingle n b.now))) n hlen hacc hfmt).trans
      (Block.onRx_onRx_accept (decodeSingle_decodeSingle n b.now) b)

/-- Settles O42: the reception is idempotent, and so is CMD_DISABLED. -/
theorem repeatedFrameChangesNothing : Obligations.RepeatedFrameChangesNothing := by
  intro s t h
  rw [exec_rxFrame] at h ⊢
  obtain ⟨hen, h⟩ | ⟨hen, rfl⟩ := whenEnabled_next h
  · cases h
    rw [execRxFrame_of_en (by simpa using hen)]
    exact congrArg (fun b => Host.Outcome.next { s with block := b }) (s.block.receive_receive s.build.nLeds)
  · refine (whenEnabled_of_not_en (s := s.raise .cmdDisabled) hen).trans ?_
    exact congrArg (fun b => Host.Outcome.next { s with block := b }) (s.block.raise_raise .cmdDisabled)

end Sys2Proof.Machine

/-! ## The LED state machine (45_led_fsm.md) -/

namespace Sys2Proof.Machine

/-! The millisecond strobe -/

/-- Settles O10: the input consumed is the strobe, whose one effect is the increment of NOW. -/
theorem strobeAdvancesNowOnly : Obligations.StrobeAdvancesNowOnly :=
  fun s _ hinputs => ⟨s.block.now + 1, BitVec.toNat_add s.block.now 1, step_of_inputs hinputs⟩

/-! A new target -/

theorem applyTarget_of_eq {t : LedTarget} {l : Led} (now : Word) (h : t = l.target) : applyTarget now t l = l :=
  if_pos h

/-- A new steady target sets the output at once and keeps LAST_TOGGLE (R264, R266). -/
theorem applyTarget_of_steady {t : LedTarget} {l : Led} {v : Bool} (now : Word) (hne : t ≠ l.target)
    (ht : t.steady = some v) : applyTarget now t l = { l with target := t, phase := v } := by
  rw [applyTarget, if_neg hne, ht]

/-- A new blink target keeps the output and restarts the timer (R264). -/
theorem applyTarget_of_blink {t : LedTarget} {l : Led} (now : Word) (hne : t ≠ l.target) (ht : t.steady = none) :
    applyTarget now t l = { l with target := t, lastToggle := now } := by
  rw [applyTarget, if_neg hne, ht]

/-- Settles O43: each target is steady, with its boolean, or a blink. -/
theorem applyTargetTransition : Obligations.ApplyTargetTransition := by
  refine fun now l => ⟨applyTarget_of_eq now rfl, fun t hne => ?_⟩
  cases t with
  | off | on | fallback v => exact applyTarget_of_steady now hne rfl
  | slowBlink | medBlink | fastBlink => exact applyTarget_of_blink now hne rfl

/-! TICK -/

/-- The elapsed time is the difference modulo 2^32 (R263). -/
theorem Led.elapsed_eq (now : Word) (l : Led) :
    l.elapsed now = (now.toNat + 2 ^ 32 - l.lastToggle.toNat) % 2 ^ 32 := by
  rw [Led.elapsed, BitVec.toNat_sub]
  omega

theorem tickLed_of_steady {l : Led} (now : Word) (h : l.target.period = none) : tickLed now l = l := by
  rw [tickLed, h]

theorem tickLed_of_blink {l : Led} {p : Nat} (now : Word) (h : l.target.period = some p) :
    tickLed now l = if p ≤ l.elapsed now then { l with phase := !l.phase, lastToggle := now } else l := by
  rw [tickLed, h]

/-- TICK flips an indicator that blinks and whose period has elapsed, and no other (R262, R268). -/
theorem tickLed_eq (now : Word) (l : Led) : tickLed now l =
    if (l.target = .slowBlink ∧ 1000 ≤ l.elapsed now) ∨ (l.target = .medBlink ∧ 500 ≤ l.elapsed now) ∨
        (l.target = .fastBlink ∧ 100 ≤ l.elapsed now)
      then { l with phase := !l.phase, lastToggle := now } else l := by
  cases ht : l.target with
  | off | on | fallback v => simp [tickLed_of_steady now (congrArg LedTarget.period ht)]
  | slowBlink | medBlink | fastBlink =>
    simp [tickLed_of_blink now (congrArg LedTarget.period ht), ht, Config.periodSlow, Config.periodMed,
      Config.periodFast]

theorem execTick_of_en {s : State} (hen : s.block.ctrl.en = true) : execTick s = .next (s.onBlock Block.tick) :=
  whenEnabled_of_en hen

/-- Settles O44: TICK maps the LED state table by what it makes of one indicator. -/
theorem tickFlipsTheDueIndicators : Obligations.TickFlipsTheDueIndicators := by
  refine ⟨oneLegalWord_of_encode rfl (by decide) (by decide), fun s => ⟨fun hen => ?_, whenEnabled_of_not_en⟩⟩
  refine ⟨s.block.rx.leds.map (tickLed s.block.now), ⟨List.length_map _, fun i l hl => ?_⟩, execTick_of_en hen⟩
  rw [List.getElem?_map, hl, Option.map_some, tickLed_eq, Led.elapsed_eq]

theorem tickLed_comp_self (now : Word) : tickLed now ∘ tickLed now = tickLed now :=
  funext (tickLed_tickLed now)

theorem Block.tick_tick (b : Block) : b.tick.tick = b.tick := by
  have hleds : (b.rx.leds.map (tickLed b.now)).map (tickLed b.now) = b.rx.leds.map (tickLed b.now) := by
    rw [List.map_map, tickLed_comp_self]
  exact congrArg (fun leds => { b with rx := { b.rx with leds := leds } }) hleds

/-- A change that finds nothing left to do in the block it made finds nothing left to do in the state. -/
theorem State.onBlock_onBlock {f : Block → Block} {s : State} (h : f (f s.block) = f s.block) :
    (s.onBlock f).onBlock f = s.onBlock f :=
  congrArg (fun b => { s with block := b }) h

/-- Settles O45: a tick is idempotent at one NOW, and so is CMD_DISABLED. -/
theorem secondTickAtTheSameNowChangesNothing : Obligations.SecondTickAtTheSameNowChangesNothing := by
  intro s t h
  obtain ⟨hen, h⟩ | ⟨hen, rfl⟩ := whenEnabled_next h
  · cases h
    have hticked : exec .tick (s.onBlock Block.tick) = .next ((s.onBlock Block.tick).onBlock Block.tick) :=
      execTick_of_en hen
    rw [hticked, State.onBlock_onBlock s.block.tick_tick]
  · have hraised : exec .tick (s.raise .cmdDisabled) = .next ((s.raise .cmdDisabled).raise .cmdDisabled) :=
      whenEnabled_of_not_en hen
    rw [hraised, State.raise, State.raise, State.onBlock_onBlock (s.block.raise_raise .cmdDisabled)]

end Sys2Proof.Machine

/-! ## System commands and reset (46_system.md) -/

namespace Sys2Proof.Machine

/-- Settles O48: NOP keeps the state without a look at CTRL.EN, and word 0 written to CMD issues it. -/
theorem nopHasNoEffect : Obligations.NopHasNoEffect := by
  have hword : OneLegalWord .nop 0x00000000#32 := oneLegalWord_of_encode rfl (by decide) (by decide)
  have hdec : decodeCommand 0 = .ok .nop := (decodeCommand_eq_ok_iff hword.1 rfl).2 rfl
  refine ⟨hword, fun s => ⟨exec_nop s, ?_⟩⟩
  calc exec (.wr 0x00C#12 0) s
    _ = issueCmd 0 s := execWr_cmd 0 s
    _ = exec .nop s := issueCmd_of_ok s hdec
    _ = .next s := exec_nop s

end Sys2Proof.Machine

/-! ## At most one error a step (60_exceptions.md R303) -/

namespace Sys2Proof.Machine

/-- What a step does to ERR: one flag is noted or none is, or bits are only cleared. -/
def ErrStep (b b' : Block) : Prop :=
  (∃ c e, b'.err = (b.noteIf c e).err) ∨ ∀ n, b'.err.getLsbD n = true → b.err.getLsbD n = true

section
variable {b b' : Block}

theorem ErrStep.of_noteIf (c : Bool) (e : ErrBit) (h : b'.err = (b.noteIf c e).err) : ErrStep b b' := .inl ⟨c, e, h⟩

theorem ErrStep.of_err_eq (h : b'.err = b.err) : ErrStep b b' := .inr fun _ hn => h ▸ hn

/-- A bit newly set is the bit of the flag noted, so that two of them are one. -/
theorem ErrStep.eq_of_raised (h : ErrStep b b') {m n : Nat} (hm : b.err.getLsbD m = false)
    (hm' : b'.err.getLsbD m = true) (hn : b.err.getLsbD n = false) (hn' : b'.err.getLsbD n = true) : m = n := by
  obtain ⟨c, e, herr⟩ | hcleared := h
  · have hraised : ∀ k, b.err.getLsbD k = false → b'.err.getLsbD k = true → k = e.index := by
      intro k hk hk'
      rw [herr, Block.noteIf_err, BitVec.getLsbD_or, hk, Bool.false_or] at hk'
      cases c
      · simp at hk'
      · simp only [if_true, BitVec.getLsbD_twoPow, Bool.and_eq_true, decide_eq_true_eq] at hk'
        exact hk'.2.symm
    exact (hraised m hm hm').trans (hraised n hn hn').symm
  · exact absurd (hcleared m hm') (by simp [hm])

/-- A write of CTRL raises CFG_LOCKED while enabled, CFG_INVALID while disabled, or neither (40_host_bus.md R136). -/
theorem ErrStep.writeCtrl (build : Build) (d : Word) (b : Block) : ErrStep b (b.writeCtrl build d) := by
  obtain ⟨-, c, h | h⟩ | ⟨-, b', rfl, h | ⟨-, h⟩ | h⟩ := writeCtrl_cases build d b <;> rw [h]
  · exact .of_noteIf c .cfgLocked rfl
  · exact .of_noteIf c .cfgLocked rfl
  · exact .of_err_eq rfl
  · exact .of_err_eq rfl
  · exact .of_noteIf true .cfgInvalid rfl

theorem ErrStep.writeReg (build : Build) (r : Reg) (d : Word) (b : Block) : ErrStep b (b.writeReg build r d) := by
  obtain ⟨-, h⟩ | ⟨-, h⟩ | ⟨c, h⟩ | ⟨-, a, f, h⟩ | ⟨-, i, f, h⟩ | ⟨rx, h, -, -⟩ :=
    b.writeReg_cases build r d <;> rw [h]
  · exact .writeCtrl build d b
  · refine .inr fun n hn => ?_
    rw [Block.clearErrors_err, BitVec.getLsbD_and, Bool.and_eq_true] at hn
    exact hn.1
  · exact .of_noteIf c .cfgLocked rfl
  · exact .of_err_eq rfl
  · exact .of_err_eq rfl
  · exact .of_err_eq rfl

/-- RX_FRAME raises RX_LEN, notes FALLBACK, or neither (44_status_rx.md R231, R238). -/
theorem ErrStep.receive (n : Nat) (b : Block) : ErrStep b (b.receive n) := by
  obtain h | h | h | h := b.receive_cases n <;> rw [h]
  · exact .of_noteIf true .rxLen rfl
  · exact .of_err_eq rfl
  · exact .of_err_eq rfl
  · exact .of_noteIf (batchFallback n b.rx.bytes) .fallback (by simp)

/-- Each of the ways the block can change notes one flag, or none. -/
theorem BlockStep.errStep {build : Build} (h : BlockStep build b b') : ErrStep b b' := by
  cases h with
  | raised e => exact .of_noteIf true e rfl
  | packed res _ _ _ =>
    exact .of_noteIf (encodeClamped build.roundTies res b.tx.axv.x b.tx.axv.y) .clamped (by simp)
  | sent r _ _ => exact .of_noteIf (decide (r = .fail)) .txFail (by simp)
  | received _ => exact .receive build.nLeds b
  | wrote r d => exact .writeReg build r d b
  | reset => exact .inr fun n hn => by simp [Block.reset] at hn
  | _ => exact .of_err_eq rfl

end

/-- Settles O57: each of the ways a step changes the block notes at most one flag. -/
theorem atMostOneErrorBitIsRaised : Obligations.AtMostOneErrorBitIsRaised := by
  intro s t m n hstep _ _ hm hm' hn hn'
  exact (step_blockStep hstep).2.errStep.eq_of_raised hm hm' hn hn'

end Sys2Proof.Machine

/-! ## Transmit and receive commands commute (60_exceptions.md R312) -/

namespace Sys2Proof.Machine

/-- What a receive command makes of a block: another receive path, and some ERR bits set. -/
def Block.withReceived (rx : RxPath) (e : BitVec 11) (b : Block) : Block := { b with rx := rx, err := b.err ||| e }

/-- A meaning that answers alike before and after the change `w` of the block, be it a next state or a stop. -/
def CommutesWith (w : Block → Block) (m : State → Result) : Prop :=
  ∀ s, m (s.onBlock w) = andThen (m s) fun t => .next (t.onBlock w)

theorem State.onBlock_congr {f g : Block → Block} {s : State} (h : f s.block = g s.block) : s.onBlock f = s.onBlock g :=
  congrArg (fun b => { s with block := b }) h

/-- Changes of the block that commute on a state's block commute on the state. -/
theorem State.onBlock_comm {f g : Block → Block} {s : State} (h : f (g s.block) = g (f s.block)) :
    (s.onBlock g).onBlock f = (s.onBlock f).onBlock g :=
  State.onBlock_congr (f := f ∘ g) (g := g ∘ f) h

@[simp] theorem State.drawnTx_onBlock (s : State) (f : Block → Block) : (s.onBlock f).drawnTx = s.drawnTx := rfl

theorem State.emit_onBlock (s : State) (f : Block → Block) (x : TxFrame) :
    (s.onBlock f).emit x = (s.emit x).onBlock f := rfl

/-! ### The commands of the transmit path -/

section
variable (rx : RxPath) (e : BitVec 11)

@[simp] theorem Block.withReceived_ctrl (b : Block) : (b.withReceived rx e).ctrl = b.ctrl := rfl
@[simp] theorem Block.withReceived_tx (b : Block) : (b.withReceived rx e).tx = b.tx := rfl

/-- ERR bits are only ORed, so the order does not matter. -/
theorem Block.noteIf_withReceived (b : Block) (c : Bool) (f : ErrBit) :
    (b.withReceived rx e).noteIf c f = (b.noteIf c f).withReceived rx e := by
  rw [Block.noteIf_eq, Block.noteIf_eq]
  simp only [withReceived, BitVec.or_assoc, BitVec.or_comm e]

theorem Block.packFrame_withReceived (b : Block) (ties : RoundTies) (res : Resolution) :
    (b.withReceived rx e).packFrame ties res = (b.packFrame ties res).withReceived rx e :=
  Block.noteIf_withReceived rx e
    (b.onTx fun t => (t.setFrame (encodePayload ties res t.axv.x t.axv.y t.btn)).consumeInputs) _ .clamped

theorem Block.afterSend_withReceived (b : Block) (r : TxResult) :
    (b.withReceived rx e).afterSend r = (b.afterSend r).withReceived rx e :=
  Block.noteIf_withReceived rx e (b.onTx TxPath.spendFrame) _ .txFail

theorem commutesWith_raise (f : ErrBit) :
    CommutesWith (Block.withReceived rx e) fun s => .next (s.raise f) := fun s =>
  congrArg Host.Outcome.next (State.onBlock_comm (s.block.noteIf_withReceived rx e true f))

theorem commutesWith_whenEnabled {m : State → Result} (hm : CommutesWith (Block.withReceived rx e) m) :
    CommutesWith (Block.withReceived rx e) (whenEnabled m) := by
  intro s
  cases hen : s.block.ctrl.en
  · rw [whenEnabled_of_not_en hen, whenEnabled_of_not_en (by simpa using hen)]
    exact commutesWith_raise rx e .cmdDisabled s
  · rw [whenEnabled_of_en hen, whenEnabled_of_en (by simpa using hen)]
    exact hm s

theorem commutesWith_sampleAxis (a : Axis) : CommutesWith (Block.withReceived rx e) (sampleAxis a) := by
  intro s
  by_cases hch : s.block.tx.ch.get a = .idle
  · rw [sampleAxis_of_idle hch, sampleAxis_of_idle (by simpa using hch)]
    rfl
  · rw [sampleAxis_of_acquiring hch, sampleAxis_of_acquiring (by simpa using hch)]
    exact commutesWith_raise rx e .overrun s

theorem commutesWith_execSample (arg : BitVec 8) : CommutesWith (Block.withReceived rx e) (execSample arg) := by
  unfold execSample
  cases axisOfArg arg with
  | none => exact commutesWith_raise rx e .cmdIllegal
  | some a => exact commutesWith_whenEnabled rx e (commutesWith_sampleAxis rx e a)

theorem commutesWith_latchPins : CommutesWith (Block.withReceived rx e) latchPins := by
  intro s
  rw [latchPins, State.afterPins_onBlock]
  rfl

theorem commutesWith_encodeFrame : CommutesWith (Block.withReceived rx e) encodeFrame := by
  intro s
  cases hfresh : s.block.tx.fresh
  · simpa [encodeFrame, hfresh] using commutesWith_raise rx e .notValid s
  · cases hres : resOf s.block.ctrl.res with
    | none => simp [encodeFrame, hfresh, hres, andThen]
    | some res =>
      simpa [encodeFrame, hfresh, hres, andThen] using
        State.onBlock_comm (s.block.packFrame_withReceived rx e s.build.roundTies res)

theorem commutesWith_sendFrame : CommutesWith (Block.withReceived rx e) sendFrame := by
  intro s
  cases hvalid : s.block.tx.frameValid
  · simpa [sendFrame, hvalid] using commutesWith_raise rx e .notValid s
  · have hsent : ((s.emit s.block.tx.txFrame).afterTx.onBlock (Block.withReceived rx e)).onBlock
        (Block.afterSend s.drawnTx) =
          ((s.emit s.block.tx.txFrame).afterTx.onBlock (Block.afterSend s.drawnTx)).onBlock (Block.withReceived rx e) :=
      State.onBlock_comm (Block.afterSend_withReceived rx e _ s.drawnTx)
    simpa [sendFrame, hvalid, State.emit_onBlock, State.afterTx_onBlock, andThen] using hsent

theorem commutesWith_exec {i : Instr} (h : isTransmit i = true) : CommutesWith (Block.withReceived rx e) (exec i) := by
  cases i with
  | sample arg => exact commutesWith_execSample rx e arg
  | latchBtn => exact commutesWith_whenEnabled rx e (commutesWith_latchPins rx e)
  | encode => exact commutesWith_whenEnabled rx e (commutesWith_encodeFrame rx e)
  | send => exact commutesWith_whenEnabled rx e (commutesWith_sendFrame rx e)
  | _ => cases h

end

/-! ### The commands of the receive path -/

/-- Two blocks alike in all that a receive command reads (10_state.md R55). -/
structure SameReceiveSide (b b' : Block) : Prop where
  ctrl : b'.ctrl = b.ctrl
  now : b'.now = b.now
  rx : b'.rx = b.rx

/-- A meaning whose effect is a reception that the build and the receive side determine. -/
def ReceiveDetermined (m : State → Result) : Prop :=
  ∀ s : State, ∃ rx e, ∀ t : State, t.build = s.build → SameReceiveSide s.block t.block →
    m t = .next (t.onBlock (Block.withReceived rx e))

section
variable (b : Block)

theorem Block.raise_eq_withReceived (e : ErrBit) : b.raise e = b.withReceived b.rx (BitVec.twoPow 11 e.index) := rfl

theorem Block.onRx_eq_withReceived (f : RxPath → RxPath) : b.onRx f = b.withReceived (f b.rx) 0 := by
  simp [onRx, withReceived]

theorem Block.onRx_noteIf_eq_withReceived (f : RxPath → RxPath) (c : Bool) (e : ErrBit) :
    (b.onRx f).noteIf c e = b.withReceived (f b.rx) (if c then BitVec.twoPow 11 e.index else 0) := by
  rw [noteIf_eq]; rfl

/-- RX_LEN, the filter set and CTRL.FMT decide what a reception is, and it decodes at NOW (44_status_rx.md R231). -/
theorem Block.receive_eq_withReceived (n : Nat) :
    ∃ rx e, ∀ b', SameReceiveSide b b' → b'.receive n = b'.withReceived rx e := by
  by_cases hlen : 8 < b.rx.rxLen.toNat
  · refine ⟨b.rx, BitVec.twoPow 11 ErrBit.rxLen.index, fun b' ⟨_, _, hrx⟩ => ?_⟩
    rw [receive_of_tooLong n (hrx ▸ hlen), raise_eq_withReceived, hrx]
  cases hacc : filterMatch b.rx.filters b.rx.rxId
  · refine ⟨b.rx.setAccepted false, 0, fun b' ⟨_, _, hrx⟩ => ?_⟩
    rw [receive_of_rejected n (hrx ▸ hlen) (hrx ▸ hacc), onRx_eq_withReceived, hrx]
  cases hfmt : b.ctrl.fmt
  · refine ⟨b.rx.accept (decodeBatch b.now),
      if batchFallback n b.rx.bytes then BitVec.twoPow 11 ErrBit.fallback.index else 0, fun b' ⟨hctrl, hnow, hrx⟩ => ?_⟩
    rw [receive_of_batch n (hrx ▸ hlen) (hrx ▸ hacc) (hctrl ▸ hfmt), onRx_noteIf_eq_withReceived, hnow, hrx]
  · refine ⟨b.rx.accept (decodeSingle n b.now), 0, fun b' ⟨hctrl, hnow, hrx⟩ => ?_⟩
    rw [receive_of_single n (hrx ▸ hlen) (hrx ▸ hacc) (hctrl ▸ hfmt), onRx_eq_withReceived, hnow, hrx]

/-- A tick reads NOW and the LED state table (45_led_fsm.md R268). -/
theorem Block.tick_eq_withReceived {b' : Block} (h : SameReceiveSide b b') : b'.tick = b'.withReceived b.tick.rx 0 := by
  have htick : b'.tick.rx = b.tick.rx := by rw [tick_rx, tick_rx, h.now, h.rx]
  rw [← htick]
  exact b'.onRx_eq_withReceived _

end

theorem receiveDetermined_receiveFrame : ReceiveDetermined receiveFrame := by
  intro s
  obtain ⟨rx, e, hreceive⟩ := s.block.receive_eq_withReceived s.build.nLeds
  refine ⟨rx, e, fun t hbuild h => ?_⟩
  rw [receiveFrame, hbuild, State.onBlock_congr (hreceive t.block h)]

theorem receiveDetermined_tickLeds : ReceiveDetermined tickLeds := by
  intro s
  refine ⟨s.block.tick.rx, 0, fun t _ h => ?_⟩
  rw [tickLeds, State.onBlock_congr (s.block.tick_eq_withReceived h)]

theorem receiveDetermined_whenEnabled {m : State → Result} (hm : ReceiveDetermined m) :
    ReceiveDetermined (whenEnabled m) := by
  intro s
  cases hen : s.block.ctrl.en
  · refine ⟨s.block.rx, BitVec.twoPow 11 ErrBit.cmdDisabled.index, fun t _ h => ?_⟩
    rw [whenEnabled_of_not_en (by rw [h.ctrl, hen]), State.raise,
      State.onBlock_congr (t.block.raise_eq_withReceived .cmdDisabled), h.rx]
  · obtain ⟨rx, e, hrun⟩ := hm s
    refine ⟨rx, e, fun t hbuild h => ?_⟩
    rw [whenEnabled_of_en (by rw [h.ctrl, hen]), hrun t hbuild h]

theorem receiveDetermined_exec {j : Instr} (h : isReceive j = true) : ReceiveDetermined (exec j) := by
  cases j with
  | rxFrame => exact receiveDetermined_whenEnabled receiveDetermined_receiveFrame
  | tick => exact receiveDetermined_whenEnabled receiveDetermined_tickLeds
  | _ => cases h

/-- A transmit command leaves all that a receive command reads. -/
theorem sameReceiveSide_of_transmit {i : Instr} {s t : State} (hi : isTransmit i = true) (h : exec i s = .next t) :
    SameReceiveSide s.block t.block where
  ctrl := (transmitLocal_exec hi).ctrl s t h
  now := (transmitLocal_exec hi).now s t h
  rx := (transmitLocal_exec hi).rx s t h

/-- Settles O55: the receive command makes the same change of the block before and after the transmit command, and the
transmit command commutes with that change, faults included. -/
theorem transmitAndReceiveCommandsCommute : Obligations.TransmitAndReceiveCommandsCommute := by
  intro s i j hi hj
  obtain ⟨rx, e, hreceive⟩ := receiveDetermined_exec hj s
  have hright : andThen (exec j s) (exec i) = andThen (exec i s) fun t => .next (t.onBlock (Block.withReceived rx e)) := by
    rw [hreceive s rfl ⟨rfl, rfl, rfl⟩]
    exact commutesWith_exec rx e hi s
  rw [hright]
  cases h : exec i s with
  | next t => exact hreceive t (exec_effect h).build (sameReceiveSide_of_transmit hi h)
  | fault f => rfl
  | refused r => rfl

end Sys2Proof.Machine

/-! ## Inputs of one clock (60_exceptions.md R304) -/

namespace Sys2Proof.Machine

/-- A step from a state whose next input is given runs that input. -/
theorem run_setInputs_cons (n : Nat) (i : Input) (rest : List Input) (s : State) :
    run (n + 1) (s.setInputs (i :: rest)) = andThen (takeInput i (s.setInputs rest)) (run n) := rfl

/-- SAMPLE issued on an enabled block's idle channel starts an acquisition (41_axis_sampler.md R161). -/
theorem takeInput_sample {a : Axis} {arg : BitVec 8} {s : State} (harg : arg.toNat = a.index)
    (hen : s.block.ctrl.en = true) (hidle : s.block.tx.ch.get a = .idle) :
    takeInput (cmdInput (commandWord arg 0x01#8)) s = .next (s.onBlock (Block.onTx (TxPath.startAcquisition a))) := by
  have hle : arg.toNat ≤ 1 := by cases a <;> simp [harg, Axis.index]
  have hdecode : decodeCommand (commandWord arg 0x01#8) = .ok (.sample arg) := by
    rw [decodeCommand_sampleWord, if_pos hle]
  calc takeInput (cmdInput (commandWord arg 0x01#8)) s
    _ = exec (.wr cmdOffset (commandWord arg 0x01#8)) s := takeInput_access s (decodeTransaction_writeWord _ _)
    _ = issueCmd (commandWord arg 0x01#8) s := execWr_cmd _ s
    _ = execSample arg s := issueCmd_of_ok s hdecode
    _ = sampleAxis a s := by rw [execSample_of_index harg, whenEnabled_of_en hen]
    _ = .next (s.onBlock (Block.onTx (TxPath.startAcquisition a))) := sampleAxis_of_idle hidle

/-- A reading that comes before the SAMPLE of its channel finds it idle and is lost (41_axis_sampler.md R163). -/
theorem run_reading_then_sample {a : Axis} {arg : BitVec 8} {s : State} (v : BitVec 16) (harg : arg.toNat = a.index)
    (hen : s.block.ctrl.en = true) (hidle : s.block.tx.ch.get a = .idle) :
    run 2 (s.setInputs [.adc a v, cmdInput (commandWord arg 0x01#8)]) =
      .next ((s.setInputs []).onBlock (Block.onTx (TxPath.startAcquisition a))) := by
  have hlost : takeInput (.adc a v) (s.setInputs [cmdInput (commandWord arg 0x01#8)]) =
      .next (s.setInputs [cmdInput (commandWord arg 0x01#8)]) := adcEvent_of_idle v hidle
  rw [run_setInputs_cons, hlost, andThen, run_setInputs_cons, takeInput_sample (s := s.setInputs []) harg hen hidle]
  rfl

/-- Settles O11: the list of a clock's inputs has the reading before the access and the access before the strobe. -/
theorem sameClockInputsAreOrdered : Obligations.SameClockInputsAreOrdered := by
  refine ⟨fun c hrst => if_pos hrst, fun s => ?_, fun s v hen hidle => ?_, fun s v hen hidle => ?_⟩
  · have hread : takeInput (.access 0x001000000000#45) (s.setInputs [.msStrobe]) =
        .next ((s.setInputs [.msStrobe]).returnData s.block.now) :=
      (takeInput_access _ (decodeTransaction_readWord 0x010#12)).trans
        (execRd_of_mapped (s := s.setInputs [.msStrobe]) (addr := 0x010#12) (r := .now) rfl)
    exact (run_setInputs_cons ..).trans (congrArg (andThen · (run 1)) hread)
  · exact ⟨_, run_reading_then_sample (a := .x) (arg := 0) v rfl hen hidle, rfl, rfl⟩
  · exact ⟨_, run_reading_then_sample (a := .y) (arg := 1) v rfl hen hidle, rfl, rfl⟩

end Sys2Proof.Machine

/-! ## The state right after reset (70_reset_and_hazards.md R331, R332) -/

namespace Sys2Proof.Machine

/-- Settles O49: SOFT_RESET and rst are ResetState(), which does not look at CTRL.EN. -/
theorem resetPutsEveryPieceToItsValue : Obligations.ResetPutsEveryPieceToItsValue :=
  fun s => ⟨exec_softReset s, fun _ hin => step_of_inputs hin, rfl⟩

/-- The spec's default parameters are within their bounds (00_scope.md R9 to R12). -/
theorem defaultBuild_wf : Config.defaultBuild.wf := by
  simp [Build.wf, Config.defaultBuild]

/-- Settles O50: the default build is one of those within their bounds. -/
theorem resetHasTheInvariant : Obligations.ResetHasTheInvariant :=
  ⟨inv_reset defaultBuild_wf, fun _ hwf => inv_reset hwf⟩

end Sys2Proof.Machine

/-! ## A whole acquisition (70_reset_and_hazards.md R357) -/

namespace Sys2Proof.Machine

@[simp] theorem PerAxis.set_set {α : Type} (p : PerAxis α) (a : Axis) (v w : α) :
    (p.set a v).set a w = p.set a w := by
  cases a <;> rfl

@[simp] theorem PerAxis.set_get {α : Type} (p : PerAxis α) (a : Axis) : p.set a (p.get a) = p := by
  cases a <;> rfl

/-- A completion overwrites the channel, whatever readings it held. -/
theorem TxPath.complete_storeReadings (t : TxPath) (a : Axis) (buf : List Reading) (value : BitVec 16) :
    (t.storeReadings a buf).complete a value = t.complete a value := by
  simp [complete, storeReadings]

/-- SAMPLE and the completion of its acquisition, on a channel that was idle, write AXV and VALID alone. -/
theorem TxPath.complete_startAcquisition {t : TxPath} {a : Axis} (hidle : t.ch.get a = .idle) (value : BitVec 16) :
    (t.startAcquisition a).complete a value = { t with axv := t.axv.set a value, valid := t.valid.set a true } := by
  simp [complete, startAcquisition, ← hidle]

/-- A reading that leaves the acquisition short of its window (R163). -/
theorem adcEvent_of_short {a : Axis} {s : State} {buf : List Reading} (v : BitVec 16)
    (hch : s.block.tx.ch.get a = .acq buf) (hlen : buf.length + 1 ≠ (s.block.tx.axc.get a).window.toNat) :
    adcEvent a v s = .next (s.onBlock (Block.onTx (TxPath.storeReadings a (s.block.tx.nextBuf a buf v)))) := by
  rw [adcEvent_of_acq v hch, if_neg hlen]

/-- The reading that fills the window (R168). -/
theorem adcEvent_of_last {a : Axis} {s : State} {buf : List Reading} {v value : BitVec 16}
    (hch : s.block.tx.ch.get a = .acq buf) (hlen : buf.length + 1 = (s.block.tx.axc.get a).window.toNat)
    (hres : resolve (s.block.tx.axc.get a) (s.block.tx.nextBuf a buf v) = some value) :
    adcEvent a v s = .next (s.onBlock (Block.onTx (TxPath.complete a value))) := by
  rw [adcEvent_of_acq v hch, if_pos hlen, hres, Option.elim]

/-- After an input that gives a next state, the run goes on from there. -/
theorem run_setInputs_of_next {i : Input} {rest : List Input} {s t : State}
    (h : takeInput i (s.setInputs rest) = .next t) (n : Nat) : run (n + 1) (s.setInputs (i :: rest)) = run n t := by
  rw [run_setInputs_cons, h, andThen]

/-- The readings that fill the window of an acquisition already begun are as many steps, the last of which completes it
with the value that the readings stored before and the transformed new ones resolve to (R163, R168). -/
theorem run_readings {a : Axis} {vs : List (BitVec 16)} (hvs : vs ≠ []) (rest : List Input) (value : BitVec 16)
    {s : State} {buf : List Reading} (hch : s.block.tx.ch.get a = .acq buf)
    (hlen : buf.length + vs.length = (s.block.tx.axc.get a).window.toNat)
    (hres : resolve (s.block.tx.axc.get a) (buf ++ vs.map (transform (s.block.tx.axc.get a).inverted)) = some value) :
    run vs.length (s.setInputs (vs.map (Input.adc a) ++ rest)) =
      .next ((s.setInputs rest).onBlock (Block.onTx (TxPath.complete a value))) := by
  induction vs generalizing s buf with
  | nil => exact absurd rfl hvs
  | cons v vs ih =>
    obtain rfl | hvs' := eq_or_ne vs []
    · have hlast : takeInput (.adc a v) (s.setInputs rest) = _ :=
        adcEvent_of_last (s := s.setInputs rest) hch hlen hres
      exact run_setInputs_of_next hlast 0
    have hpos : 0 < vs.length := List.length_pos_of_ne_nil hvs'
    rw [List.length_cons] at hlen
    set buf' := s.block.tx.nextBuf a buf v with hbuf'
    have hlen' : buf'.length = buf.length + 1 := by simp [hbuf', TxPath.nextBuf]
    have hstored : takeInput (.adc a v) (s.setInputs (vs.map (Input.adc a) ++ rest)) = _ :=
      adcEvent_of_short v hch (by rw [State.setInputs_block]; omega)
    have hfilled := ih hvs' (s := s.onBlock (Block.onTx (TxPath.storeReadings a buf'))) (buf := buf') (by simp)
      (by simp; omega) (by simpa [hbuf', TxPath.nextBuf] using hres)
    calc run (v :: vs).length (s.setInputs ((v :: vs).map (Input.adc a) ++ rest))
      _ = run vs.length ((s.onBlock (Block.onTx (TxPath.storeReadings a buf'))).setInputs
            (vs.map (Input.adc a) ++ rest)) := run_setInputs_of_next hstored vs.length
      _ = .next (((s.setInputs rest).onBlock (Block.onTx (TxPath.storeReadings a buf'))).onBlock
            (Block.onTx (TxPath.complete a value))) := hfilled
      _ = .next ((s.setInputs rest).onBlock (Block.onTx (TxPath.complete a value))) := by
          simp [State.onBlock, Block.onTx, TxPath.complete_storeReadings]

theorem ofNat_index_toNat (a : Axis) : (BitVec.ofNat 8 a.index).toNat = a.index := by
  cases a <;> rfl

/-- Settles O24: SAMPLE opens an empty acquisition, which the W readings fill. -/
theorem sampleAndWindowOfReadingsCompletes : Obligations.SampleAndWindowOfReadingsCompletes := by
  intro s a w vs rest hen hidle hrank hlen hw hin
  have hvs : vs ≠ [] := by
    rintro rfl
    simp [← hlen] at hrank
  obtain ⟨value, hvalue⟩ := resolve_isSome (cfg := s.block.tx.axc.get a)
    (buf := vs.map (transform (s.block.tx.axc.get a).inverted)) (by simpa [hlen] using hrank)
  refine ⟨value, hvalue, ?_⟩
  have hsample : Input.access w = cmdInput (commandWord (BitVec.ofNat 8 a.index) 0x01#8) := by
    subst hw
    cases a <;> rfl
  have hs : s.setInputs (cmdInput (commandWord (BitVec.ofNat 8 a.index) 0x01#8) ::
      (vs.map (Input.adc a) ++ rest)) = s := by
    rw [← hsample, ← hin, State.setInputs_self]
  have hstart := takeInput_sample (s := s.setInputs (vs.map (Input.adc a) ++ rest)) (ofNat_index_toNat a) hen hidle
  calc run (vs.length + 1) s
    _ = run vs.length ((s.onBlock (Block.onTx (TxPath.startAcquisition a))).setInputs (vs.map (Input.adc a) ++ rest)) :=
        (congrArg (run _) hs.symm).trans (run_setInputs_of_next hstart _)
    _ = .next (((s.onBlock (Block.onTx (TxPath.startAcquisition a))).setInputs rest).onBlock
          (Block.onTx (TxPath.complete a value))) :=
        run_readings hvs rest value (buf := []) (by simp) (by simpa using hlen) hvalue
    _ = _ := by
        simp only [State.onBlock, Block.onTx, State.setInputs, TxPath.complete_startAcquisition hidle]

end Sys2Proof.Machine

/-! ## An acquisition without readings (70_reset_and_hazards.md R343) -/

namespace Sys2Proof.Machine

/-- An acquisition on axis `a` is as it was, or the block is disabled. -/
def AcquisitionKept (a : Axis) (b b' : Block) : Prop :=
  b.tx.ch.get a ≠ .idle → b'.ctrl.en = true → b'.tx.ch.get a = b.tx.ch.get a

section
variable {a : Axis} {b b' : Block} {s t : State}

theorem AcquisitionKept.of_ch (h : b'.tx.ch = b.tx.ch) : AcquisitionKept a b b' := fun _ _ => by rw [h]

theorem AcquisitionKept.of_disabled (h : b'.ctrl.en = false) : AcquisitionKept a b b' := fun _ hen => by
  rw [h] at hen
  cases hen

/-- SAMPLE starts on an idle channel alone (41_axis_sampler.md R161). -/
theorem AcquisitionKept.startAcquisition {a' : Axis} (hidle : b.tx.ch.get a' = .idle) :
    AcquisitionKept a b (b.onTx (TxPath.startAcquisition a')) := fun hacq _ => by
  have hne : a ≠ a' := by
    rintro rfl
    exact hacq hidle
  simp [PerAxis.get_set_of_ne _ _ hne]

theorem AcquisitionKept.writeCtrl (build : Build) (d : Word) : AcquisitionKept a b (b.writeCtrl build d) := by
  obtain ⟨-, c, h | h⟩ | ⟨-, b', rfl, h | ⟨-, h⟩ | h⟩ := writeCtrl_cases build d b <;> rw [h]
  · exact .of_ch (by simp)
  · exact .of_disabled rfl
  all_goals exact .of_ch rfl

theorem AcquisitionKept.writeReg (build : Build) (r : Reg) (d : Word) :
    AcquisitionKept a b (b.writeReg build r d) := by
  obtain ⟨-, h⟩ | ⟨-, h⟩ | ⟨c, h⟩ | ⟨-, a', f, h⟩ | ⟨-, i, f, h⟩ | ⟨rx, h, -, -⟩ :=
    b.writeReg_cases build r d <;> rw [h]
  · exact .writeCtrl build d
  · exact .of_ch rfl
  · exact .of_ch (by simp)
  all_goals exact .of_ch rfl

theorem whenEnabled_acquisitionKept {m : State → Result}
    (hm : ∀ t, m s = .next t → AcquisitionKept a s.block t.block) (h : whenEnabled m s = .next t) :
    AcquisitionKept a s.block t.block := by
  obtain ⟨-, h⟩ | ⟨-, rfl⟩ := whenEnabled_next h
  · exact hm t h
  · exact .of_ch rfl

theorem execSample_acquisitionKept {arg : BitVec 8} (h : execSample arg s = .next t) :
    AcquisitionKept a s.block t.block := by
  unfold execSample at h
  split at h
  · cases h; exact .of_ch rfl
  · refine whenEnabled_acquisitionKept (fun t h => ?_) h
    obtain ⟨-, rfl⟩ | ⟨hidle, rfl⟩ := sampleAxis_cases h
    · exact .of_ch rfl
    · exact .startAcquisition hidle

/-- Of the commands, SAMPLE and SOFT_RESET alone write a channel. -/
theorem exec_acquisitionKept_of_isCommand {i : Instr} (hi : i.isCommand = true) (h : exec i s = .next t) :
    AcquisitionKept a s.block t.block := by
  cases i with
  | rd addr => cases hi
  | wr addr d => cases hi
  | nop => cases h; exact .of_ch rfl
  | sample arg => exact execSample_acquisitionKept h
  | latchBtn => exact whenEnabled_acquisitionKept (by rintro _ ⟨⟩; exact .of_ch (by simp)) h
  | encode =>
    refine whenEnabled_acquisitionKept (fun t h => ?_) h
    obtain ⟨-, res, -, rfl⟩ | ⟨-, rfl⟩ := encodeFrame_cases h
    · exact .of_ch (by simp)
    · exact .of_ch rfl
  | send =>
    refine whenEnabled_acquisitionKept (fun t h => ?_) h
    obtain ⟨-, rfl⟩ | ⟨-, rfl⟩ := sendFrame_cases h
    · exact .of_ch (by simp)
    · exact .of_ch rfl
  | rxFrame => exact whenEnabled_acquisitionKept (by rintro _ ⟨⟩; exact .of_ch (by simp)) h
  | tick => exact whenEnabled_acquisitionKept (by rintro _ ⟨⟩; exact .of_ch rfl) h
  | softReset => cases h; exact .of_disabled rfl

theorem issueCmd_acquisitionKept {w : Word} (h : issueCmd w s = .next t) : AcquisitionKept a s.block t.block := by
  cases hdec : decodeCommand w with
  | error r =>
    rw [issueCmd_of_error s hdec] at h
    cases h; exact .of_ch rfl
  | ok i =>
    rw [issueCmd_of_ok s hdec] at h
    exact exec_acquisitionKept_of_isCommand (isCommand_of_decodeCommand hdec) h

theorem exec_acquisitionKept {i : Instr} (h : exec i s = .next t) : AcquisitionKept a s.block t.block := by
  cases i with
  | rd addr =>
    rw [exec_rd, execRd] at h
    split at h <;> cases h <;> exact .of_ch rfl
  | wr addr d =>
    rw [exec_wr, execWr] at h
    split at h
    · cases h; exact .of_ch rfl
    · exact issueCmd_acquisitionKept h
    · cases h; exact .writeReg _ _ d
  | _ => exact exec_acquisitionKept_of_isCommand rfl h

/-- A reading on another axis writes that axis's channel (41_axis_sampler.md R172). -/
theorem adcEvent_acquisitionKept {a' : Axis} {v : BitVec 16} (hne : a ≠ a') (h : adcEvent a' v s = .next t) :
    AcquisitionKept a s.block t.block := fun _ _ => by
  obtain ⟨-, rfl⟩ | ⟨buf, -, ⟨-, rfl⟩ | ⟨-, value, -, rfl⟩⟩ := adcEvent_cases h
  · rfl
  · simp [PerAxis.get_set_of_ne _ _ hne]
  · simp [PerAxis.get_set_of_ne _ _ hne]

/-- Every input but a reading on the axis keeps its acquisition, or disables. -/
theorem takeInput_acquisitionKept {i : Input} (hi : ∀ v, i ≠ .adc a v) (h : takeInput i s = .next t) :
    AcquisitionKept a s.block t.block := by
  cases i with
  | access w =>
    cases hdec : decodeTransaction w with
    | error r => rw [takeInput_of_rejected s hdec] at h; cases h
    | ok i => rw [takeInput_access s hdec] at h; exact exec_acquisitionKept h
  | adc a' v =>
    have hne : a ≠ a' := by
      rintro rfl
      exact hi v rfl
    exact adcEvent_acquisitionKept hne h
  | rst => cases h; exact .of_disabled rfl
  | _ => cases h; exact .of_ch rfl

theorem step_acquisitionKept (hin : ∀ v rest, s.port.inputs ≠ .adc a v :: rest) (h : step s = .next t) :
    AcquisitionKept a s.block t.block := by
  obtain ⟨-, rfl⟩ | ⟨i, rest, hi, h⟩ := step_cases h
  · exact .of_ch rfl
  · refine takeInput_acquisitionKept (s := s.setInputs rest) (fun v => ?_) h
    rintro rfl
    exact hin v rest hi

end

/-- Settles O29: no other input writes an acquiring channel of a block left enabled; the block is enabled while it
acquires and VALID_a is 0, so SAMPLE finds the channel busy and ENCODE a stale input. -/
theorem stuckAcquisitionPersists : Obligations.StuckAcquisitionPersists := by
  intro s t a hinv hacq
  obtain ⟨buf, hch⟩ : ∃ buf, s.block.tx.ch.get a = .acq buf := by
    cases hch : s.block.tx.ch.get a with
    | idle => exact absurd hch hacq
    | acq buf => exact ⟨buf, rfl⟩
  have hen : s.block.ctrl.en = true := hinv.en_of_acq hch
  obtain ⟨-, -, hvalid⟩ := (hinv.channels a).of_acq hch
  have hstale : s.block.tx.fresh = false :=
    TxPath.fresh_eq_false (by cases a; exacts [.inl hvalid, .inr (.inl hvalid)])
  refine ⟨fun h hin hen' => step_acquisitionKept hin h hacq hen', ?_, execEncode_of_stale hen hstale⟩
  rw [exec_sample, execSample_of_index (ofNat_index_toNat a), whenEnabled_of_en hen, sampleAxis_of_acquiring hacq]
  rfl

end Sys2Proof.Machine
